-- ==== Sys2Proof/Word.lean ====
section
/-! DEFINITION. The word types of the block (spec/00_scope.md R11): what the spec treats as bits is a bit vector. -/

namespace Sys2Proof

/-- A frame byte or the CRC register (`u8`). -/
abbrev Byte := BitVec 8

/-- An element of GF(16), a Reed-Solomon symbol (`u4`, R13). -/
abbrev Sym := BitVec 4

/-- A window sample (`i16`), held as its two's-complement pattern. -/
abbrev Sample := BitVec 16

/-- A command word, or an absolute sample index (`u32`). -/
abbrev Word := BitVec 32

/-- The data of a response (`u64`, R90). -/
abbrev Data := BitVec 64

/-- The TimeFrame register file FR[0..11] (R27). -/
abbrev Frame := Vector Byte 12

/-- The codeword register file CW[0..14] (R28). -/
abbrev Codeword := Vector Sym 15

end Sys2Proof
end

