-- ==== Sys2Proof/Config.lean ====
section
/-! DEFINITION. The configuration of the block, fixed at construction (spec/00_scope.md R4, R5; spec/10_state.md R30), and
the values the spec leaves free. -/

namespace Sys2Proof

/-- Which power of X a codeword symbol multiplies: the OPEN parameter `SYMBOL_ORDER` of 92_eei_decisions.md D5. -/
inductive SymbolOrder where
  /-- The spec's default (00_scope.md R14): deg(j) = 14 - j. -/
  | highDegreeFirst
  /-- The alternative D5 names (the 1989 reference program): data j has degree 6 + j, parity 9 + i has degree i. -/
  | lowDegreeFirst
  deriving DecidableEq, Repr

/-- The construction arguments (R4). They are strapped at reset and no command writes them (R30). -/
structure Config where
  /-- `SPB`, samples per bit. -/
  spb : Nat
  /-- `H`, the noise half-width: a sample v is out of band iff |v| > H. -/
  halfWidth : Nat
  /-- `L`, the number of window positions. -/
  len : Nat
  /-- `SYMBOL_ORDER` (D5). -/
  order : SymbolOrder
  deriving DecidableEq, Repr

namespace Config

/-- The defaults of R4 and D5. -/
def default : Config :=
  { spb := 10, halfWidth := 15000, len := 1024, order := .highDegreeFirst }

/-- The inverse of 0 in GF(16): "A model may leave `gf_inv(0)` undefined or give it any value" (40_gf16.md R105, U14).
A free value: nothing constrains it. Log entry 8. -/
opaque gfInvZero : Sym

/-- 0^(-(n+1)) in GF(16): R106 gives 0^0 = 1 and 0^e = 0 for e > 0, and no value for a negative e. A free value. Log entry 8. -/
opaque gfZeroNegPow : Nat → Sym

end Config

end Sys2Proof
end

