-- ==== Sys2Proof/Syntax.lean ====
section
/-! DEFINITION. The commands: one constructor per row of spec/opcode_table.json (spec/30_encoding.md R86). -/

namespace Sys2Proof

/-- The window array that RDBUF selects (43_window_sync.md R170). -/
inductive WindowArray where
  | smp
  | flg
  | idx
  deriving DecidableEq, Repr

/-- The scalar that RDST selects (43_window_sync.md R171). -/
inductive Scalar where
  | ms
  | awaitingSync
  | cnt
  | bufferFull
  | spb
  | halfWidth
  | len
  deriving DecidableEq, Repr

/-- A command. Index operands `k` and `i` carry the four bits of their field; their ranges are checked by
`Instr.wellFormed`. -/
inductive Instr where
  | nop
  | init
  | rsenc
  | rsdec
  | wrcw (k : BitVec 4) (imm : Sym)
  | rdcw (k : BitVec 4)
  | crcclr
  | crcupd (imm : Byte)
  | crcget
  | crcfr
  | bufpush (smp : Sample)
  | corr
  | rdbuf (sel : WindowArray) (pos : BitVec 16)
  | rdst (sel : Scalar)
  | lookup
  | rdbyte (b : Bool) (pos : BitVec 16)
  | extract (pos : BitVec 16)
  | validate
  | unpack
  | repack
  | crcfix
  | descr
  | fields
  | wrfr (i : BitVec 4) (imm : Byte)
  | rdfr (i : BitVec 4)
  | push (smp : Sample)
  deriving DecidableEq, Repr

end Sys2Proof
end

