-- ==== Sys2Proof/WellFormed.lean ====
section
/-! DEFINITION. Which commands are well formed: the operand ranges of spec/30_encoding.md R86 that the types do not
already enforce. -/

namespace Sys2Proof

/-- The ranges that hold for every configuration: k = 0..14 and i = 0..11. -/
def Instr.wellFormed : Instr → Bool
  | .wrcw k _ => decide (k.toNat ≤ 14)
  | .rdcw k => decide (k.toNat ≤ 14)
  | .wrfr i _ => decide (i.toNat ≤ 11)
  | .rdfr i => decide (i.toNat ≤ 11)
  | .nop => true
  | .init => true
  | .rsenc => true
  | .rsdec => true
  | .crcclr => true
  | .crcupd _ => true
  | .crcget => true
  | .crcfr => true
  | .bufpush _ => true
  | .corr => true
  | .rdbuf _ _ => true
  | .rdst _ => true
  | .lookup => true
  | .rdbyte _ _ => true
  | .extract _ => true
  | .validate => true
  | .unpack => true
  | .repack => true
  | .crcfix => true
  | .descr => true
  | .fields => true
  | .push _ => true

/-- The command is legal (R84) in the block built with `c`: well formed, and for RDBUF a position 0..L-1 (R88). -/
def Instr.legalFor (c : Config) (i : Instr) : Bool :=
  i.wellFormed &&
    match i with
    | .rdbuf _ pos => decide (pos.toNat < c.len)
    | _ => true

end Sys2Proof
end

