-- ==== Sys2Proof/Decode.lean ====
section
/-! DEFINITION. The decoder and the encoder of command words (spec/30_encoding.md R81 to R87). -/

namespace Sys2Proof

/-- Why a word is illegal (R84). -/
inductive Reject where
  /-- `op` is not in the table of R86. -/
  | reservedOpcode
  /-- A field that must be 0 is not 0. -/
  | mustBeZero
  /-- An index, selector or operand is outside its range. -/
  | outOfRange
  deriving DecidableEq, Repr

/-- The command word with the fields `op`, `a`, `d` (R81). -/
def makeWord (op a : BitVec 8) (d : BitVec 16) : Word := op ++ a ++ d

/-- `w[31:24]`. -/
def opField (w : Word) : BitVec 8 := w.extractLsb' 24 8

/-- `w[23:16]`. -/
def aField (w : Word) : BitVec 8 := w.extractLsb' 16 8

/-- `w[15:0]`. -/
def dField (w : Word) : BitVec 16 := w.extractLsb' 0 16

/-- Format N: both operand fields must be 0 (R81). -/
def formatN (w : Word) (i : Instr) : Except Reject Instr :=
  if aField w = 0 ∧ dField w = 0 then .ok i else .error .mustBeZero

/-- Format D: `a` must be 0, `d` is the operand (R81). -/
def formatD (w : Word) (f : BitVec 16 → Except Reject Instr) : Except Reject Instr :=
  if aField w = 0 then f (dField w) else .error .mustBeZero

/-- An index in `a` that must not exceed `top`, with the four low bits of the field as the operand (R82). -/
def indexOperand (top : Nat) (w : Word) (f : BitVec 4 → Except Reject Instr) : Except Reject Instr :=
  if (aField w).toNat ≤ top then f ((aField w).extractLsb' 0 4) else .error .outOfRange

/-- The `d` field must be 0 (the reading commands of format A). -/
def zeroD (w : Word) (i : Instr) : Except Reject Instr :=
  if dField w = 0 then .ok i else .error .mustBeZero

/-- A byte operand: `d[7:0]` with `d[15:8]` = 0 (R82). -/
def byteOperand (d : BitVec 16) (f : Byte → Instr) : Except Reject Instr :=
  if d.toNat < 256 then .ok (f (d.extractLsb' 0 8)) else .error .outOfRange

/-- A symbol operand: `d[3:0]` with `d[15:4]` = 0 (R82). -/
def symOperand (d : BitVec 16) (f : Sym → Instr) : Except Reject Instr :=
  if d.toNat < 16 then .ok (f (d.extractLsb' 0 4)) else .error .outOfRange

/-- RDBUF's selector (R170). -/
def windowArrayOf (a : BitVec 8) : Option WindowArray :=
  match a with
  | 0#8 => some .smp
  | 1#8 => some .flg
  | 2#8 => some .idx
  | _ => none

/-- RDST's selector (R171). -/
def scalarOf (a : BitVec 8) : Option Scalar :=
  match a with
  | 0#8 => some .ms
  | 1#8 => some .awaitingSync
  | 2#8 => some .cnt
  | 3#8 => some .bufferFull
  | 4#8 => some .spb
  | 5#8 => some .halfWidth
  | 6#8 => some .len
  | _ => none

/-- RDBYTE's initial running bit: `a[0]` with `a[7:1]` = 0 (R82). -/
def bitOf (a : BitVec 8) : Option Bool :=
  match a with
  | 0#8 => some false
  | 1#8 => some true
  | _ => none

/-- A selector that was recognised, or the range rejection. -/
def selected {α : Type} (sel : Option α) (f : α → Except Reject Instr) : Except Reject Instr :=
  match sel with
  | some x => f x
  | none => .error .outOfRange

/-- Decode one command word (R86). RDBUF's bound `pos ≤ L - 1` depends on the configuration and is checked by its meaning
(log entry 9). -/
def decode (w : Word) : Except Reject Instr :=
  match opField w with
  | 0x00#8 => formatN w .nop
  | 0x01#8 => formatN w .init
  | 0x10#8 => formatN w .rsenc
  | 0x11#8 => formatN w .rsdec
  | 0x12#8 => indexOperand 14 w fun k => symOperand (dField w) (.wrcw k)
  | 0x13#8 => indexOperand 14 w fun k => zeroD w (.rdcw k)
  | 0x20#8 => formatN w .crcclr
  | 0x21#8 => formatD w fun d => byteOperand d .crcupd
  | 0x22#8 => formatN w .crcget
  | 0x23#8 => formatN w .crcfr
  | 0x30#8 => formatD w fun d => .ok (.bufpush d)
  | 0x31#8 => formatN w .corr
  | 0x32#8 => selected (windowArrayOf (aField w)) fun sel => .ok (.rdbuf sel (dField w))
  | 0x33#8 => selected (scalarOf (aField w)) fun sel => zeroD w (.rdst sel)
  | 0x40#8 => formatN w .lookup
  | 0x41#8 => selected (bitOf (aField w)) fun b => .ok (.rdbyte b (dField w))
  | 0x42#8 => formatD w fun d => .ok (.extract d)
  | 0x50#8 => formatN w .validate
  | 0x51#8 => formatN w .unpack
  | 0x52#8 => formatN w .repack
  | 0x53#8 => formatN w .crcfix
  | 0x54#8 => formatN w .descr
  | 0x55#8 => formatN w .fields
  | 0x56#8 => indexOperand 11 w fun i => byteOperand (dField w) (.wrfr i)
  | 0x57#8 => indexOperand 11 w fun i => zeroD w (.rdfr i)
  | 0x60#8 => formatD w fun d => .ok (.push d)
  | _ => .error .reservedOpcode

/-- The code of RDBUF's selector (R170). -/
def WindowArray.code : WindowArray → BitVec 8
  | .smp => 0
  | .flg => 1
  | .idx => 2

/-- The code of RDST's selector (R171). -/
def Scalar.code : Scalar → BitVec 8
  | .ms => 0
  | .awaitingSync => 1
  | .cnt => 2
  | .bufferFull => 3
  | .spb => 4
  | .halfWidth => 5
  | .len => 6

/-- The opcode of a command (R86). -/
def Instr.opcode : Instr → BitVec 8
  | .nop => 0x00
  | .init => 0x01
  | .rsenc => 0x10
  | .rsdec => 0x11
  | .wrcw _ _ => 0x12
  | .rdcw _ => 0x13
  | .crcclr => 0x20
  | .crcupd _ => 0x21
  | .crcget => 0x22
  | .crcfr => 0x23
  | .bufpush _ => 0x30
  | .corr => 0x31
  | .rdbuf _ _ => 0x32
  | .rdst _ => 0x33
  | .lookup => 0x40
  | .rdbyte _ _ => 0x41
  | .extract _ => 0x42
  | .validate => 0x50
  | .unpack => 0x51
  | .repack => 0x52
  | .crcfix => 0x53
  | .descr => 0x54
  | .fields => 0x55
  | .wrfr _ _ => 0x56
  | .rdfr _ => 0x57
  | .push _ => 0x60

/-- The `a` field of a command's word (R81, R86). -/
def Instr.aBits : Instr → BitVec 8
  | .wrcw k _ => k.zeroExtend 8
  | .rdcw k => k.zeroExtend 8
  | .wrfr i _ => i.zeroExtend 8
  | .rdfr i => i.zeroExtend 8
  | .rdbuf sel _ => sel.code
  | .rdst sel => sel.code
  | .rdbyte b _ => if b then 1 else 0
  | .nop => 0
  | .init => 0
  | .rsenc => 0
  | .rsdec => 0
  | .crcclr => 0
  | .crcupd _ => 0
  | .crcget => 0
  | .crcfr => 0
  | .bufpush _ => 0
  | .corr => 0
  | .lookup => 0
  | .extract _ => 0
  | .validate => 0
  | .unpack => 0
  | .repack => 0
  | .crcfix => 0
  | .descr => 0
  | .fields => 0
  | .push _ => 0

/-- The `d` field of a command's word (R81, R86). -/
def Instr.dBits : Instr → BitVec 16
  | .wrcw _ imm => imm.zeroExtend 16
  | .crcupd imm => imm.zeroExtend 16
  | .wrfr _ imm => imm.zeroExtend 16
  | .bufpush smp => smp
  | .push smp => smp
  | .rdbuf _ pos => pos
  | .rdbyte _ pos => pos
  | .extract pos => pos
  | .nop => 0
  | .init => 0
  | .rsenc => 0
  | .rsdec => 0
  | .rdcw _ => 0
  | .crcclr => 0
  | .crcget => 0
  | .crcfr => 0
  | .corr => 0
  | .rdst _ => 0
  | .lookup => 0
  | .validate => 0
  | .unpack => 0
  | .repack => 0
  | .crcfix => 0
  | .descr => 0
  | .fields => 0
  | .rdfr _ => 0

/-- The word of a command (R81). -/
def encode (i : Instr) : Word := makeWord i.opcode i.aBits i.dBits

/-- The instruction the decoder reads from a table word of `nbits` bits (a command word is one 32-bit word, R83). -/
def decodeTableWord (nbits w : Nat) : Option Instr :=
  if nbits ≤ 32 then
    match decode (BitVec.ofNat 32 (w % 2 ^ nbits)) with
    | .ok i => some i
    | .error _ => none
  else none

end Sys2Proof
end

