-- ==== Sys2Proof/Machine/State.lean ====
section
/-! DEFINITION. The state of one block instance (spec/10_state.md), its ports (spec/30_encoding.md R80), the reasons a step
can stop, and the state after reset (R42). -/

namespace Sys2Proof.Machine

/-- Why the machine stops with a fault. -/
inductive Fault where
  /-- A window position that does not exist was accessed. Raised by the window reads and by the write of a flag. No rule of
  the spec performs such an access (20_memory.md R56), and a state with `Memory.wf` under a legal configuration never
  raises it. Safe: it stops where the spec has nothing. Log entry 7. -/
  | windowRange
  deriving DecidableEq, Repr

/-- Why the machine gives an instruction no meaning. -/
inductive Refusal where
  /-- Raised by an arm of `exec` that has no meaning yet. Safe. No arm uses it. -/
  | notModelled (mnemonic : String)
  /-- The configuration breaks the ranges of 00_scope.md R4, R5: "refused: the model gives it no meaning". Raised by every
  command. Safe. Log entry 4. -/
  | illegalConfiguration
  deriving DecidableEq, Repr

/-- The status of a response (30_encoding.md R90). -/
inductive Status where
  | ok
  | fail
  | illegal
  deriving DecidableEq, Repr

/-- What a command returns on the response port (R90). -/
structure Response where
  status : Status
  data : Data
  deriving DecidableEq, Repr

/-- The decoded transmitter state (45_frame_fec.md R216). -/
inductive TransmitterState where
  | normal
  | maint1Week
  | maint1Day
  | maintOver1Week
  deriving DecidableEq, Repr

/-- The decoded message (45_frame_fec.md R217; widths D12). -/
structure TimeData where
  utcSecondsSince2000 : Data
  unixSeconds : Data
  /-- Hours, 0..3. -/
  offset : Nat
  timeZoneChangeAnnounced : Bool
  leapSecondAnnounced : Bool
  leapSecondPositive : Bool
  transmitterState : TransmitterState
  deriving DecidableEq, Repr

/-- The two error kinds (60_exceptions.md R253). -/
inductive ErrorKind where
  | rsCorrectionFailed
  | crcCorrectionFailed
  deriving DecidableEq, Repr

/-- An event (60_exceptions.md R250). -/
inductive Event where
  | rawFrame (frame : Frame) (first : Word)
  | rsFrame (frame : Frame) (first : Word)
  | crcFrame (frame : Frame) (first : Word)
  | timeData (time : TimeData) (first : Word)
  | error (kind : ErrorKind)
  deriving DecidableEq, Repr

/-- One thing the host does to the block (30_encoding.md R80, R85). -/
inductive HostInput where
  /-- Present a command word. -/
  | command (w : Word)
  /-- Assert the reset input. -/
  | reset
  deriving DecidableEq, Repr

/-- The state. `smp` to `crc` are the nine entries of R20; `cfg` the configuration registers of R30; `port`, `resp` and
`events` are the model's own fields, the spec's ports (log entries 1 and 2). -/
structure State where
  /-- SPB, H, L and SYMBOL_ORDER, read-only (R30). -/
  cfg : Config
  /-- SMP[0..L-1] (R21). -/
  smp : List Sample
  /-- FLG[0..L-1] (R22). -/
  flg : List Bool
  /-- IDX[0..L-1] (R23). -/
  idx : List Word
  /-- MS, the first live position; L is "empty" (R24). -/
  ms : Nat
  /-- CNT, the absolute sample counter (R25). -/
  cnt : Word
  /-- AS (R26). -/
  awaitingSync : Bool
  /-- FR[0..11] (R27). -/
  fr : Frame
  /-- CW[0..14] (R28). -/
  cw : Codeword
  /-- The CRC register (R29). -/
  crc : Byte
  /-- Command port and reset input: what the host will do next, first entry first. -/
  port : List HostInput
  /-- Response port: the response of the latest command. -/
  resp : Option Response
  /-- Event port: the events of the latest command, in order. -/
  events : List Event
  deriving DecidableEq, Repr

/-- The window holds exactly L entries in each of its three arrays: the one canonical form of the storage (20_memory.md R50). -/
abbrev Memory.wf (s : State) : Prop :=
  s.smp.length = s.cfg.len ∧ s.flg.length = s.cfg.len ∧ s.idx.length = s.cfg.len

/-- The state after reset of a block constructed with `c` (R42, 70_reset_and_hazards.md R281). -/
def State.resetWith (c : Config) : State where
  cfg := c
  smp := List.replicate c.len 0
  flg := List.replicate c.len false
  idx := List.replicate c.len 0
  ms := c.len
  cnt := 0
  awaitingSync := true
  fr := Vector.replicate 12 0
  cw := Vector.replicate 15 0
  crc := 0x00
  port := []
  resp := none
  events := []

/-- The state after reset with the default configuration (R4; log entry 3). -/
def State.reset : State := State.resetWith Config.default

end Sys2Proof.Machine
end

