-- ==== Sys2Proof/Machine/Ops.lean ====
section
/-! DEFINITION. The named operations over the state: which configurations are legal, reading and writing the window, the
registers and the ports, reset, recovery, and how a command ends. -/

namespace Sys2Proof.Machine

/-! ## Configuration -/

/-- The legal configurations (00_scope.md R4, R5 a): SPB is a u8, 1 ≤ SPB and 15·SPB ≤ L - 1, H ≤ 32767, 16 ≤ L ≤ 65535. -/
def configLegal (c : Config) : Bool :=
  decide (1 ≤ c.spb) && decide (c.spb ≤ 255) && decide (c.halfWidth ≤ 32767) &&
    decide (16 ≤ c.len) && decide (c.len ≤ 65535) && decide (15 * c.spb ≤ c.len - 1)

/-! ## Register access -/

/-- `MS <- p`. -/
def State.setMs (s : State) (p : Nat) : State := { s with ms := p }

/-- `AS <- b`. -/
def State.setAwaitingSync (s : State) (b : Bool) : State := { s with awaitingSync := b }

/-- `FR <- f`, all twelve bytes. -/
def State.setFr (s : State) (f : Frame) : State := { s with fr := f }

/-- `CW <- c`, all fifteen symbols. -/
def State.setCw (s : State) (c : Codeword) : State := { s with cw := c }

/-- `CRC <- v`. -/
def State.setCrc (s : State) (v : Byte) : State := { s with crc := v }

/-- `CNT <- n`. -/
def State.setCnt (s : State) (n : Word) : State := { s with cnt := n }

/-- Replace the three arrays of the window. -/
def State.setWindow (s : State) (smp : List Sample) (flg : List Bool) (idx : List Word) : State :=
  { s with smp := smp, flg := flg, idx := idx }

/-- Replace the flag array alone. -/
def State.setFlg (s : State) (flg : List Bool) : State := { s with flg := flg }

/-- What the host does next, after the present input is taken. -/
def State.setPort (s : State) (p : List HostInput) : State := { s with port := p }

/-- `return (status, data)` with the events of the command (30_encoding.md R90, 60_exceptions.md R250). -/
def State.replyWith (s : State) (status : Status) (data : Data) (events : List Event) : State :=
  { s with resp := some { status := status, data := data }, events := events }

/-- `return (status, data)` of a command that emits no event. -/
def State.reply (s : State) (status : Status) (data : Data) : State := s.replyWith status data []

/-- An illegal command changes no state, emits no event and returns status ILLEGAL with data 0 (30_encoding.md R84,
60_exceptions.md R257). -/
def State.illegal (s : State) : State := s.reply .illegal 0

/-! ## The window (`MemRead` and `MemWrite` of 00_scope.md R12) -/

/-- `MemRead(SMP, p)`; nothing for a position outside the window (00_scope.md R12). -/
def State.readSmp (s : State) (p : Nat) : Option Sample := s.smp[p]?

/-- `MemRead(FLG, p)`. -/
def State.readFlg (s : State) (p : Nat) : Option Bool := s.flg[p]?

/-- `MemRead(IDX, p)`. -/
def State.readIdx (s : State) (p : Nat) : Option Word := s.idx[p]?

/-- `MemWrite(FLG, p, b)`. -/
def State.writeFlg (s : State) (p : Nat) (b : Bool) : Option State :=
  if p < s.flg.length then some (s.setFlg (s.flg.set p b)) else none

/-- One array of the window after an append: the element of position p goes to p - 1 for every p in `ms`..L - 1 (the element
of position 0 is dropped), positions below `ms - 1` stay, and `x` stands at L - 1 (43_window_sync.md R161 steps 1, 2). -/
def shiftIn {α : Type} (ms : Nat) (x : α) (l : List α) : List α :=
  l.take (ms - 1) ++ l.drop (max ms 1) ++ [x]

/-! ## Reset, recovery, the end of a command -/

/-- The reset values of every piece of state the spec lists (10_state.md R42); the configuration and the ports stay. -/
def State.resetCore (s : State) : State :=
  let r := State.resetWith s.cfg
  { s with
    smp := r.smp, flg := r.flg, idx := r.idx, ms := r.ms, cnt := r.cnt, awaitingSync := r.awaitingSync
    fr := r.fr, cw := r.cw, crc := r.crc }

/-- The recovery of every failure inside PUSH: `MS <- MS + 1; AS <- true` (60_exceptions.md R262). -/
def State.recover (s : State) : State := (s.setMs (s.ms + 1)).setAwaitingSync true

/-- The end of a command that started in `s`: refused under an illegal configuration (00_scope.md R5 d), a fault if a window
position that does not exist was touched, else the next state. -/
def commit (s : State) (r : Option State) : Host.Outcome State Fault Refusal :=
  if configLegal s.cfg then
    match r with
    | some t => .next t
    | none => .fault .windowRange
  else .refused .illegalConfiguration

/-- Between commands the block holds its state and does nothing (60_exceptions.md R268). -/
def idle (s : State) : Host.Outcome State Fault Refusal := commit s (some s)

/-- The reset input: the reset state (70_reset_and_hazards.md R280), with nothing on the response and event ports (log
entry 10). -/
def resetInput (s : State) : Host.Outcome State Fault Refusal :=
  commit s (some { s.resetCore with resp := none, events := [] })

/-- The host presents an illegal word (60_exceptions.md R257). -/
def illegalWord (s : State) : Host.Outcome State Fault Refusal := commit s (some s.illegal)

end Sys2Proof.Machine
end

