-- ==== Sys2Proof/Machine/Operands.lean ====
section
/-! DEFINITION. Operand assembly (spec/30_encoding.md R82) and the layouts of response data (R91). -/

namespace Sys2Proof.Machine

/-- A position operand is `d` read unsigned. -/
def positionOf (d : BitVec 16) : Nat := d.toNat

/-- An index operand of a register file of `n` entries, when it is in range. -/
def indexOf? (n : Nat) (k : BitVec 4) : Option (Fin n) :=
  if h : k.toNat < n then some ⟨k.toNat, h⟩ else none

/-- A value zero-extended into the response data. -/
def zext {n : Nat} (v : BitVec n) : Data := v.setWidth 64

/-- A number as response data (MS, SPB, H, L). -/
def natData (n : Nat) : Data := BitVec.ofNat 64 n

/-- A bool in bit 0. -/
def boolData (b : Bool) : Data := zext (BitVec.ofBool b)

/-- RDBYTE: `byte | bit << 8 | next << 16` (R91, 44_extract.md R183); `next` takes bits 39..16. -/
def readByteData (byte : Byte) (bit : Bool) (next : Nat) : Data :=
  zext byte ||| (boolData bit <<< 8) ||| (zext (BitVec.ofNat 24 next) <<< 16)

/-- EXTRACT: `bit << 8 | next << 16` (R91, 44_extract.md R185). -/
def extractData (bit : Bool) (next : Nat) : Data :=
  (boolData bit <<< 8) ||| (zext (BitVec.ofNat 24 next) <<< 16)

end Sys2Proof.Machine
end

