-- ==== Sys2Proof/Machine/Flags.lean ====
section
/-! DEFINITION. The computed conditions of the block. It stores no condition codes (spec/10_state.md R41): bufferFull, the
two classifications of a sample (spec/30_encoding.md R76) and a correlator tap (spec/43_window_sync.md R164) are computed
where they are used. -/

namespace Sys2Proof.Machine

/-- `bufferFull = (MS == 0)` (10_state.md R36). -/
def bufferFull (s : State) : Bool := s.ms == 0

/-- Out of the noise band: |v| > H, with |v| taken in ℤ (00_scope.md R11). -/
def outOfBand (c : Config) (v : Sample) : Bool := decide (c.halfWidth < v.toInt.natAbs)

/-- v > 0 as a signed number. -/
def positive (v : Sample) : Bool := decide (0 < v.toInt)

/-- Bit k of the sync word SYNC = 0x5555 (00_scope.md R6). -/
def syncBit (k : Nat) : Bool := (0x5555#16).getLsbD k

/-- Tap k of the correlator matches the sample v (43_window_sync.md R164). -/
def tapMatches (c : Config) (k : Nat) (v : Sample) : Bool := outOfBand c v && (positive v == syncBit k)

end Sys2Proof.Machine
end

