-- ==== Sys2Proof/Machine/Window.lean ====
section
/-! DEFINITION. The sample window and the sync correlator (spec/43_window_sync.md): BUFPUSH, CORR, RDBUF, RDST. -/

namespace Sys2Proof.Machine

/-- BUFPUSH on the state (R161): append at L - 1, shift MS..L - 1 left, count down MS, count up CNT modulo 2^32. -/
def State.bufpush (s : State) (smp : Sample) : State :=
  ((s.setWindow (shiftIn s.ms smp s.smp) (shiftIn s.ms false s.flg) (shiftIn s.ms s.cnt s.idx)).setMs
    (s.ms - 1)).setCnt (s.cnt + 1)

/-- The position of tap k: L - 1 - k·SPB (R164). -/
def tapPosition (c : Config) (k : Nat) : Nat := c.len - 1 - k * c.spb

/-- All the listed taps match (R166); nothing if one of them lies outside the window. -/
def tapsMatch (s : State) : List Nat → Option Bool
  | [] => some true
  | k :: ks =>
    match s.readSmp (tapPosition s.cfg k), tapsMatch s ks with
    | some v, some m => some (tapMatches s.cfg k v && m)
    | _, _ => none

/-- The correlation at the newest sample: `SMP[L-1] > 0` and every tap 0..15 matches (R165, R166). -/
def correlation (s : State) : Option Bool :=
  match s.readSmp (tapPosition s.cfg 0), tapsMatch s (List.range 16) with
  | some v, some m => some (positive v && m)
  | _, _ => none

/-- CORR on the state (R166): the flag value is stored at L - 1 - 15·SPB and returned. -/
def State.corr (s : State) : Option (State × Bool) :=
  match correlation s with
  | some m =>
    match s.writeFlg (tapPosition s.cfg 15) m with
    | some t => some (t, m)
    | none => none
  | none => none

/-- The element RDBUF reads, as response data (R170). -/
def windowData (s : State) (sel : WindowArray) (p : Nat) : Option Data :=
  match sel with
  | .smp => (s.readSmp p).map zext
  | .flg => (s.readFlg p).map boolData
  | .idx => (s.readIdx p).map zext

/-- The scalar RDST reads, as response data (R171). -/
def scalarData (s : State) (sel : Scalar) : Data :=
  match sel with
  | .ms => natData s.ms
  | .awaitingSync => boolData s.awaitingSync
  | .cnt => zext s.cnt
  | .bufferFull => boolData (bufferFull s)
  | .spb => natData s.cfg.spb
  | .halfWidth => natData s.cfg.halfWidth
  | .len => natData s.cfg.len

/-- BUFPUSH smp (R161); the response carries bufferFull. -/
def execBufpush (smp : Sample) (s : State) : Host.Outcome State Fault Refusal :=
  commit s (some ((s.bufpush smp).reply .ok (boolData (bufferFull (s.bufpush smp)))))

/-- CORR (R166). -/
def execCorr (s : State) : Host.Outcome State Fault Refusal :=
  commit s (s.corr.map fun r => r.1.reply .ok (boolData r.2))

/-- RDBUF sel, pos (R170): illegal if pos > L - 1 (30_encoding.md R88). -/
def execRdbuf (sel : WindowArray) (pos : BitVec 16) (s : State) : Host.Outcome State Fault Refusal :=
  commit s
    (if positionOf pos < s.cfg.len then (windowData s sel (positionOf pos)).map (s.reply .ok)
     else some s.illegal)

/-- RDST sel (R171). -/
def execRdst (sel : Scalar) (s : State) : Host.Outcome State Fault Refusal :=
  commit s (some (s.reply .ok (scalarData s sel)))

end Sys2Proof.Machine
end

