-- ==== Sys2Proof/Machine/Extract.lean ====
section
/-! DEFINITION. Frame-start lookup and the differential byte reader (spec/44_extract.md): LOOKUP, RDBYTE, EXTRACT.
In a result of type `Option (Option α)` the outer `none` is an access outside the window (a fault) and the inner `none` the
failure the spec defines. -/

namespace Sys2Proof.Machine

/-- Read the samples at `start`, `start + SPB`, ... for `n` bits: an out-of-band sample flips the running bit, which is then
appended as the next least significant bit (R183). -/
def readBits (s : State) : (n : Nat) → (start : Nat) → (bit : Bool) → (byte : Byte) → Option (Byte × Bool)
  | 0, _, bit, byte => some (byte, bit)
  | n + 1, start, bit, byte =>
    match s.readSmp start with
    | none => none
    | some v =>
      let bit' := bit ^^ outOfBand s.cfg v
      readBits s n (start + s.cfg.spb) bit' ((byte <<< 1) ||| (BitVec.ofBool bit').setWidth 8)

/-- `readbyte(start, bit)`: the byte and the running bit; FAIL if `start + 7·SPB > L - 1` (R183). -/
def readByte (s : State) (start : Nat) (bit : Bool) : Option (Option (Byte × Bool)) :=
  if s.cfg.len - 1 < start + 7 * s.cfg.spb then some none
  else (readBits s 8 start bit 0).map some

/-- The least p with MS ≤ p < lim and FLG[p] = true (R181). -/
def firstFlag (s : State) (lim : Nat) : Option Nat :=
  (((s.flg.take lim).drop s.ms).findIdx? id).map (s.ms + ·)

/-- The two bytes at `p` read from initial bit true are both 0x55 (R181). -/
def syncBytesAt (s : State) (p : Nat) : Option Bool :=
  match readByte s p true with
  | none => none
  | some none => some false
  | some (some (b1, bit1)) =>
    match readByte s (p + 8 * s.cfg.spb) bit1 with
    | none => none
    | some none => some false
    | some (some (b2, _)) => some (b1 == 0x55 && b2 == 0x55)

/-- LOOKUP on the state (R181): the new state and the frame start found, if any. -/
def State.lookup (s : State) : Option (State × Option Nat) :=
  let lim := s.cfg.len - 15 * s.cfg.spb
  match firstFlag s lim with
  | none => some (s.setMs lim, none)
  | some p =>
    match syncBytesAt s p with
    | none => none
    | some true => some (s.setMs p, some p)
    | some false => some (s.setMs (p + s.cfg.spb), none)

/-- The chain of byte reads that fills FR at the listed indices (R185). -/
def readFrame (s : State) : List (Fin 12) → (start : Nat) → (bit : Bool) → Frame → Option (Frame × Bool)
  | [], _, bit, f => some (f, bit)
  | i :: is, start, bit, f =>
    match readBits s 8 start bit 0 with
    | none => none
    | some (byte, bit') => readFrame s is (start + 8 * s.cfg.spb) bit' (f.set i byte)

/-- EXTRACT on the state (R185): the state with FR filled and the running bit after byte 11; FAIL if the frame is not wholly
inside the window, with FR unchanged. -/
def State.extract (s : State) (start : Nat) : Option (Option (State × Bool)) :=
  if s.cfg.len - 1 < start + 95 * s.cfg.spb then some none
  else (readFrame s (List.finRange 12) start true s.fr).map fun r => some (s.setFr r.1, r.2)

/-- LOOKUP (R181): FAIL means "none"; MS is changed also then. -/
def execLookup (s : State) : Host.Outcome State Fault Refusal :=
  commit s (s.lookup.map fun r =>
    match r.2 with
    | some p => r.1.reply .ok (zext (BitVec.ofNat 16 p))
    | none => r.1.reply .fail 0)

/-- RDBYTE b, pos (R183). -/
def execRdbyte (b : Bool) (pos : BitVec 16) (s : State) : Host.Outcome State Fault Refusal :=
  commit s ((readByte s (positionOf pos) b).map fun r =>
    match r with
    | some (byte, bit) => s.reply .ok (readByteData byte bit (positionOf pos + 8 * s.cfg.spb))
    | none => s.reply .fail 0)

/-- EXTRACT pos (R185). -/
def execExtract (pos : BitVec 16) (s : State) : Host.Outcome State Fault Refusal :=
  commit s ((s.extract (positionOf pos)).map fun r =>
    match r with
    | some (t, bit) => t.reply .ok (extractData bit (positionOf pos + 96 * s.cfg.spb))
    | none => s.reply .fail 0)

end Sys2Proof.Machine
end

