-- ==== Sys2Proof/Machine/Crc.lean ====
section
/-! DEFINITION. The CRC-8 engine (spec/42_crc8.md): CRCCLR, CRCUPD, CRCGET, CRCFR. -/

namespace Sys2Proof.Machine

/-- INIT (00_scope.md R6). -/
def crcInit : Byte := 0x00

/-- POLY (00_scope.md R6). -/
def crcPoly : Byte := 0x07

/-- One of the eight shifts: bit 7 is read before the shift, the shifted value is kept to 8 bits (R152). -/
def crcShift (crc : Byte) : Byte :=
  if crc.getLsbD 7 then (crc <<< 1) ^^^ crcPoly else crc <<< 1

/-- `n` shifts. -/
def crcShifts : Nat → Byte → Byte
  | 0, crc => crc
  | n + 1, crc => crcShifts n (crcShift crc)

/-- Fold one byte into the register (R152). -/
def crcUpdate (crc data : Byte) : Byte := crcShifts 8 (crc ^^^ data)

/-- The register after a string of bytes from INIT (R155). -/
def crcOf (bytes : List Byte) : Byte := bytes.foldl crcUpdate crcInit

/-- Frame bytes 3..7, which the frame CRC covers (30_encoding.md R74). -/
def messageBytes (f : Frame) : List Byte := [f[3], f[4], f[5], f[6], f[7]]

/-- The frame CRC (R154). -/
def frameCrc (f : Frame) : Byte := crcOf (messageBytes f)

/-- CRCCLR (R151). -/
def execCrcclr (s : State) : Host.Outcome State Fault Refusal :=
  commit s (some ((s.setCrc crcInit).reply .ok 0))

/-- CRCUPD imm (R152). -/
def execCrcupd (imm : Byte) (s : State) : Host.Outcome State Fault Refusal :=
  commit s (some ((s.setCrc (crcUpdate s.crc imm)).reply .ok 0))

/-- CRCGET (R153). -/
def execCrcget (s : State) : Host.Outcome State Fault Refusal :=
  commit s (some (s.reply .ok (zext s.crc)))

/-- CRCFR (R154). -/
def execCrcfr (s : State) : Host.Outcome State Fault Refusal :=
  commit s (some ((s.setCrc (frameCrc s.fr)).reply .ok (zext (frameCrc s.fr))))

end Sys2Proof.Machine
end

