-- ==== Sys2Proof/Machine/GF.lean ====
section
/-! DEFINITION. Arithmetic in GF(16) (spec/40_gf16.md) with the constant tables of spec/10_state.md R31 to R33. -/

namespace Sys2Proof.Machine

/-- ALPHA_TO[0..14] = α^i (R31, R101). -/
def alphaTo : List Sym :=
  [0x1, 0x2, 0x4, 0x8, 0x3, 0x6, 0xC, 0xB, 0x5, 0xA, 0x7, 0xE, 0xF, 0xD, 0x9]

/-- INDEX_OF[0..15], with the sentinel -1 for 0 (R32, R102). -/
def indexOf : List Int := [-1, 0, 1, 4, 2, 8, 5, 10, 3, 14, 9, 7, 6, 13, 11, 12]

/-- GPOLY[0..6], the coefficients of the generator polynomial, lowest degree first (R33, R121). -/
def gpoly : List Sym := [0xC, 0xA, 0xC, 0x3, 0x9, 0x7, 0x1]

/-- `INDEX_OF[v]`. -/
def gfLog (v : Sym) : Int := indexOf.getD v.toNat (-1)

/-- `α^e = ALPHA_TO[e mod 15]` for every integer e, `mod` the non-negative remainder (R106). -/
def alphaPow (e : Int) : Sym := alphaTo.getD (e % 15).toNat 0

/-- Addition, and subtraction (R103). -/
def gfAdd (a b : Sym) : Sym := a ^^^ b

/-- Multiplication: zero operands are tested for before any index is added (R104). -/
def gfMul (a b : Sym) : Sym :=
  if a = 0 ∨ b = 0 then 0 else alphaPow (gfLog a + gfLog b)

/-- The inverse of a ≠ 0 (R105); that of 0 is left free (log entry 8). -/
def gfInv (a : Sym) : Sym :=
  if a = 0 then Config.gfInvZero else alphaPow (15 - gfLog a)

/-- `a / b` for b ≠ 0 (R105). -/
def gfDiv (a b : Sym) : Sym := gfMul a (gfInv b)

/-- 0^0 = 1 and 0^e = 0 for e > 0 (R106); 0 to a negative power is left free (log entry 8). -/
def zeroPow : Int → Sym
  | .ofNat 0 => 1
  | .ofNat (_ + 1) => 0
  | .negSucc n => Config.gfZeroNegPow n

/-- `a^e` for every integer e: ALPHA_TO[(INDEX_OF[a]·e) mod 15] for a ≠ 0 (R106). -/
def gfPow (a : Sym) (e : Int) : Sym := if a = 0 then zeroPow e else alphaPow (gfLog a * e)

/-- A sum of field elements. -/
def gfSum (l : List Sym) : Sym := l.foldr gfAdd 0

/-- Coefficient of x^d of a polynomial given as its coefficients, lowest degree first. -/
def coeff (p : List Sym) (d : Nat) : Sym := p.getD d 0

/-- The value at x by Horner's rule (R108). -/
def polyEval (p : List Sym) (x : Sym) : Sym := p.foldr (fun c r => gfAdd (gfMul r x) c) 0

/-- The sum of two polynomials. -/
def polyAdd : List Sym → List Sym → List Sym
  | [], q => q
  | p, [] => p
  | a :: p, b :: q => gfAdd a b :: polyAdd p q

/-- `c·x^m·P`. -/
def polyScaleShift (c : Sym) (m : Nat) (p : List Sym) : List Sym :=
  List.replicate m 0 ++ p.map (gfMul c)

/-- The formal derivative: the odd powers survive, each one degree lower (R109). -/
def polyDeriv (p : List Sym) : List Sym :=
  (List.range (p.length - 1)).map fun d => if d % 2 = 0 then coeff p (d + 1) else 0

end Sys2Proof.Machine
end

