-- ==== Sys2Proof/Machine/RsCodec.lean ====
section
/-! DEFINITION. The Reed-Solomon (15,9) encoder and decoder and the access to the codeword register (spec/41_rs_codec.md):
RSENC, RSDEC, WRCW, RDCW. -/

namespace Sys2Proof.Machine

/-! ## The symbol order -/

/-- The degree of symbol index j in the code polynomial (00_scope.md R14; D5). -/
def degreeOf (o : SymbolOrder) (j : Nat) : Nat :=
  match o with
  | .highDegreeFirst => 14 - j
  | .lowDegreeFirst => if j < 9 then 6 + j else j - 9

/-- The nine data symbols in the order of falling degree, in which they enter the encoder's register. -/
def dataByDegree (o : SymbolOrder) (cw : Codeword) : List Sym :=
  match o with
  | .highDegreeFirst => [cw[0], cw[1], cw[2], cw[3], cw[4], cw[5], cw[6], cw[7], cw[8]]
  | .lowDegreeFirst => [cw[8], cw[7], cw[6], cw[5], cw[4], cw[3], cw[2], cw[1], cw[0]]

/-! ## Encoder -/

/-- One step of the six-stage division register b[0..5], `b[i]` the coefficient of X^i (R123). -/
def encoderStep (b : List Sym) (d : Sym) : List Sym :=
  let fb := gfAdd d (coeff b 5)
  [gfMul fb (coeff gpoly 0),
   gfAdd (coeff b 0) (gfMul fb (coeff gpoly 1)),
   gfAdd (coeff b 1) (gfMul fb (coeff gpoly 2)),
   gfAdd (coeff b 2) (gfMul fb (coeff gpoly 3)),
   gfAdd (coeff b 3) (gfMul fb (coeff gpoly 4)),
   gfAdd (coeff b 4) (gfMul fb (coeff gpoly 5))]

/-- The register after all data symbols, started from zero (R123). -/
def encoderRegister (data : List Sym) : List Sym := data.foldl encoderStep [0, 0, 0, 0, 0, 0]

/-- The codeword with the data symbols kept and the parity symbols taken from the register by degree (R123). -/
def rsEncode (o : SymbolOrder) (cw : Codeword) : Codeword :=
  let b := encoderRegister (dataByDegree o cw)
  Vector.ofFn fun j => if j.val < 9 then cw[j] else coeff b (degreeOf o j.val)

/-! ## Decoder -/

/-- The syndrome S[i] = Σ_j CW[j]·α^(i·deg j) (R126). -/
def syndrome (o : SymbolOrder) (cw : Codeword) (i : Nat) : Sym :=
  gfSum ((List.finRange 15).map fun j => gfMul cw[j] (alphaPow (i * degreeOf o j.val : Nat)))

/-- S[1..6]; as a coefficient list it is S(x) = Σ S[i]·x^(i-1) of R133. -/
def syndromes (o : SymbolOrder) (cw : Codeword) : List Sym :=
  [syndrome o cw 1, syndrome o cw 2, syndrome o cw 3, syndrome o cw 4, syndrome o cw 5, syndrome o cw 6]

/-- The registers of the Berlekamp-Massey procedure (R129). -/
structure Massey where
  /-- Λ. -/
  locator : List Sym
  /-- B. -/
  previous : List Sym
  /-- L. -/
  length : Nat
  /-- m. -/
  gap : Nat
  /-- b. -/
  scale : Sym
  deriving DecidableEq, Repr

/-- The discrepancy δ of iteration n: S[n+1] + Σ_{i=1..L} Λ_i·S[n+1-i] (R129); `S[k]` is `coeff s (k - 1)`. -/
def discrepancy (s : List Sym) (n : Nat) (st : Massey) : Sym :=
  gfAdd (coeff s n)
    (gfSum ((List.range st.length).map fun i => gfMul (coeff st.locator (i + 1)) (coeff s (n - (i + 1)))))

/-- One iteration (R129). -/
def masseyStep (s : List Sym) (st : Massey) (n : Nat) : Massey :=
  let δ := discrepancy s n st
  if δ = 0 then { st with gap := st.gap + 1 }
  else
    let next := polyAdd st.locator (polyScaleShift (gfDiv δ st.scale) st.gap st.previous)
    if 2 * st.length ≤ n then
      { locator := next, previous := st.locator, length := n + 1 - st.length, gap := 1, scale := δ }
    else { st with locator := next, gap := st.gap + 1 }

/-- Berlekamp-Massey over S[1..6] (R129). -/
def berlekampMassey (s : List Sym) : Massey :=
  [0, 1, 2, 3, 4, 5].foldl (masseyStep s) { locator := [1], previous := [1], length := 0, gap := 1, scale := 1 }

/-- Chien search: P = { p in 0..14 : Λ(α^(-p)) = 0 } (R131). -/
def chienSearch (locator : List Sym) : List Nat :=
  (List.range 15).filter fun p => polyEval locator (alphaPow (-(p : Int))) = 0

/-- Ω(x) = (S(x)·Λ(x)) mod x^6 (R133). -/
def omega (s : List Sym) (st : Massey) : List Sym :=
  (List.range 6).map fun d =>
    gfSum ((List.range (min d st.length + 1)).map fun j => gfMul (coeff st.locator j) (coeff s (d - j)))

/-- The error value at degree p: Ω(x_p) / Λ'(x_p) with x_p = α^(-p) (R133). -/
def errorValue (s : List Sym) (st : Massey) (p : Nat) : Sym :=
  let x := alphaPow (-(p : Int))
  gfDiv (polyEval (omega s st) x) (polyEval (polyDeriv st.locator) x)

/-- The correction: the symbol of degree p gets e[p] added for every p of P, the others stay (R134). -/
def correctSymbols (o : SymbolOrder) (s : List Sym) (st : Massey) (positions : List Nat) (cw : Codeword) : Codeword :=
  Vector.ofFn fun j =>
    let p := degreeOf o j.val
    if p ∈ positions then gfAdd cw[j] (errorValue s st p) else cw[j]

/-- The decoder: the corrected codeword, or nothing in the two failure cases (R125, R127, R130, R132). -/
def rsDecode (o : SymbolOrder) (cw : Codeword) : Option Codeword :=
  let s := syndromes o cw
  if ∀ x ∈ s, x = 0 then some cw
  else
    let st := berlekampMassey s
    if 3 < st.length then none
    else
      let positions := chienSearch st.locator
      if positions.length ≠ st.length then none
      else some (correctSymbols o s st positions cw)

/-! ## The commands -/

/-- RSENC on the state (R123). -/
def State.rsenc (s : State) : State := s.setCw (rsEncode s.cfg.order s.cw)

/-- RSDEC on the state: nothing on failure, CW is then unchanged (R125, D9). -/
def State.rsdec (s : State) : Option State := (rsDecode s.cfg.order s.cw).map s.setCw

/-- RSENC (R122, R123). -/
def execRsenc (s : State) : Host.Outcome State Fault Refusal :=
  commit s (some (s.rsenc.reply .ok 0))

/-- RSDEC (R125). -/
def execRsdec (s : State) : Host.Outcome State Fault Refusal :=
  commit s (some
    (match s.rsdec with
     | some t => t.reply .ok 0
     | none => s.reply .fail 0))

/-- WRCW k, imm (R137): illegal if k > 14. -/
def execWrcw (k : BitVec 4) (imm : Sym) (s : State) : Host.Outcome State Fault Refusal :=
  commit s (some
    (match indexOf? 15 k with
     | some j => (s.setCw (s.cw.set j imm)).reply .ok 0
     | none => s.illegal))

/-- RDCW k (R138): illegal if k > 14. -/
def execRdcw (k : BitVec 4) (s : State) : Host.Outcome State Fault Refusal :=
  commit s (some
    (match indexOf? 15 k with
     | some j => s.reply .ok (zext s.cw[j])
     | none => s.illegal))

end Sys2Proof.Machine
end

