-- ==== Sys2Proof/Machine/Frame.lean ====
section
/-! DEFINITION. Frame validation, symbol packing, SK1 repair, descrambling, field extraction and the access to the frame
register (spec/45_frame_fec.md): VALIDATE, UNPACK, REPACK, CRCFIX, DESCR, FIELDS, WRFR, RDFR. -/

namespace Sys2Proof.Machine

/-! ## Static fields -/

/-- The static-field check (R201). -/
def staticFieldsOk (f : Frame) : Bool :=
  f[0] == 0x55 && f[1] == 0x55 && f[2] == 0x60 && f[3] >>> 5 == 0b101

/-! ## Symbol packing -/

/-- The fifteen symbols of a frame (R203, written out; 30_encoding.md R73). -/
def unpackFrame (f : Frame) : Codeword :=
  #v[f[3].extractLsb' 1 4,
     f[3].extractLsb' 0 1 ++ f[4].extractLsb' 5 3,
     f[4].extractLsb' 1 4,
     f[4].extractLsb' 0 1 ++ f[5].extractLsb' 5 3,
     f[5].extractLsb' 1 4,
     f[5].extractLsb' 0 1 ++ f[6].extractLsb' 5 3,
     f[6].extractLsb' 1 4,
     f[6].extractLsb' 0 1 ++ f[7].extractLsb' 5 3,
     f[7].extractLsb' 1 4,
     f[8].extractLsb' 4 4, f[8].extractLsb' 0 4,
     f[9].extractLsb' 4 4, f[9].extractLsb' 0 4,
     f[10].extractLsb' 4 4, f[10].extractLsb' 0 4]

/-- The frame with the fifteen symbols written back: byte 3 keeps its top three bits, byte 7 its bit 0, bytes 0..2 and 11
stay (R205, D10). -/
def repackFrame (f : Frame) (cw : Codeword) : Frame :=
  #v[f[0], f[1], f[2],
     f[3].extractLsb' 5 3 ++ cw[0] ++ cw[1].extractLsb' 3 1,
     cw[1].extractLsb' 0 3 ++ cw[2] ++ cw[3].extractLsb' 3 1,
     cw[3].extractLsb' 0 3 ++ cw[4] ++ cw[5].extractLsb' 3 1,
     cw[5].extractLsb' 0 3 ++ cw[6] ++ cw[7].extractLsb' 3 1,
     cw[7].extractLsb' 0 3 ++ cw[8] ++ f[7].extractLsb' 0 1,
     cw[9] ++ cw[10],
     cw[11] ++ cw[12],
     cw[13] ++ cw[14],
     f[11]]

/-- UNPACK on the state (R203). -/
def State.unpack (s : State) : State := s.setCw (unpackFrame s.fr)

/-- REPACK on the state (R205). -/
def State.repack (s : State) : State := s.setFr (repackFrame s.fr s.cw)

/-! ## SK1 repair -/

/-- The frame with SK1, bit 0 of byte 7, flipped. -/
def flipSk1 (f : Frame) : Frame := f.set 7 (f[7] ^^^ 0x01)

/-- CRCFIX on the state (R207): the new state, and whether SK1 was flipped, or nothing for CrcCorrectionFailed. The CRC
register holds the last CRC computed. -/
def State.crcfix (s : State) : State × Option Bool :=
  if frameCrc s.fr = s.fr[11] then (s.setCrc (frameCrc s.fr), some false)
  else
    let flipped := flipSk1 s.fr
    let t := s.setCrc (frameCrc flipped)
    if frameCrc flipped = s.fr[11] then (t.setFr flipped, some true) else (t, none)

/-! ## Descrambler -/

/-- KEY[0..4] (00_scope.md R6). -/
def key : Vector Byte 5 := #v[0x0A, 0x47, 0x55, 0x4D, 0x2B]

/-- XOR of the key into bytes 3..7 (R210). -/
def descramble (f : Frame) : Frame :=
  #v[f[0], f[1], f[2], f[3] ^^^ key[0], f[4] ^^^ key[1], f[5] ^^^ key[2], f[6] ^^^ key[3], f[7] ^^^ key[4],
     f[8], f[9], f[10], f[11]]

/-- DESCR on the state (R210). -/
def State.descr (s : State) : State := s.setFr (descramble s.fr)

/-! ## Field extraction -/

/-- The 30-bit time value T (R214). -/
def fieldT (f : Frame) : BitVec 30 := f[3].extractLsb' 0 5 ++ f[4] ++ f[5] ++ f[6] ++ f[7].extractLsb' 7 1

/-- The TZ code, bit 6 the more significant (R213, 30_encoding.md R71). -/
def fieldTz (f : Frame) : BitVec 2 := f[7].extractLsb' 5 2

/-- LS (R213). -/
def fieldLs (f : Frame) : Bool := f[7].getLsbD 4

/-- LSS (R213). -/
def fieldLss (f : Frame) : Bool := f[7].getLsbD 3

/-- TZC (R213). -/
def fieldTzc (f : Frame) : Bool := f[7].getLsbD 2

/-- SK = 2·SK0 + SK1 (R213). -/
def fieldSk (f : Frame) : BitVec 2 := f[7].extractLsb' 0 2

/-- The layout of the FIELDS word (R213, 30_encoding.md R91). -/
def packFields (t : BitVec 30) (tz : BitVec 2) (ls lss tzc : Bool) (sk : BitVec 2) : Data :=
  zext t ||| (zext tz <<< 35) ||| (boolData ls <<< 37) ||| (boolData lss <<< 38) ||| (boolData tzc <<< 39) |||
    (zext sk <<< 40)

/-- The FIELDS word of a frame (R213). -/
def fieldsWord (f : Frame) : Data :=
  packFields (fieldT f) (fieldTz f) (fieldLs f) (fieldLss f) (fieldTzc f) (fieldSk f)

/-- EPOCH, the seconds from 1970-01-01 to 2000-01-01 (00_scope.md R6). -/
def epochOffset : Nat := 946684800

/-- RES, the time resolution in seconds (00_scope.md R6). -/
def timeResolution : Nat := 3

/-- Hours of offset from the TZ code (R215). -/
def offsetHours (tz : BitVec 2) : Nat :=
  match tz with
  | 0#2 => 0
  | 1#2 => 2
  | 2#2 => 1
  | 3#2 => 3

/-- The transmitter state from the SK code (R216). -/
def transmitterStateOf (sk : BitVec 2) : TransmitterState :=
  match sk with
  | 0#2 => .normal
  | 1#2 => .maint1Week
  | 2#2 => .maint1Day
  | 3#2 => .maintOver1Week

/-- The TimeData record of a descrambled frame (R217). -/
def timeDataOf (f : Frame) : TimeData where
  utcSecondsSince2000 := natData (timeResolution * (fieldT f).toNat)
  unixSeconds := natData (timeResolution * (fieldT f).toNat + epochOffset)
  offset := offsetHours (fieldTz f)
  timeZoneChangeAnnounced := fieldTzc f
  leapSecondAnnounced := fieldLs f
  leapSecondPositive := fieldLss f
  transmitterState := transmitterStateOf (fieldSk f)

/-! ## The commands -/

/-- VALIDATE (R201). -/
def execValidate (s : State) : Host.Outcome State Fault Refusal :=
  commit s (some (s.reply (if staticFieldsOk s.fr then .ok else .fail) 0))

/-- UNPACK (R203). -/
def execUnpack (s : State) : Host.Outcome State Fault Refusal :=
  commit s (some (s.unpack.reply .ok 0))

/-- REPACK (R205). -/
def execRepack (s : State) : Host.Outcome State Fault Refusal :=
  commit s (some (s.repack.reply .ok 0))

/-- CRCFIX (R207). -/
def execCrcfix (s : State) : Host.Outcome State Fault Refusal :=
  commit s (some
    (match s.crcfix with
     | (t, some flipped) => t.reply .ok (boolData flipped)
     | (t, none) => t.reply .fail 0))

/-- DESCR (R210). -/
def execDescr (s : State) : Host.Outcome State Fault Refusal :=
  commit s (some (s.descr.reply .ok 0))

/-- FIELDS (R213). -/
def execFields (s : State) : Host.Outcome State Fault Refusal :=
  commit s (some (s.reply .ok (fieldsWord s.fr)))

/-- WRFR i, imm (R218): illegal if i > 11. -/
def execWrfr (i : BitVec 4) (imm : Byte) (s : State) : Host.Outcome State Fault Refusal :=
  commit s (some
    (match indexOf? 12 i with
     | some j => (s.setFr (s.fr.set j imm)).reply .ok 0
     | none => s.illegal))

/-- RDFR i (R219): illegal if i > 11. -/
def execRdfr (i : BitVec 4) (s : State) : Host.Outcome State Fault Refusal :=
  commit s (some
    (match indexOf? 12 i with
     | some j => s.reply .ok (zext s.fr[j])
     | none => s.illegal))

end Sys2Proof.Machine
end

