-- ==== Sys2Proof/Machine/Sequencer.lean ====
section
/-! DEFINITION. The per-sample sequencer (spec/46_pipeline.md): PUSH, and the event port's encoding of what it emits
(spec/60_exceptions.md R250). -/

namespace Sys2Proof.Machine

/-! ## One frame -/

/-- The success step: `MS <- min(MS + 96·SPB, L); AS <- true` (R238). -/
def State.passFrame (s : State) : State :=
  (s.setMs (min (s.ms + 96 * s.cfg.spb) s.cfg.len)).setAwaitingSync true

/-- Steps 5c, 5d and 7 of R231: SK1 repair, descrambling, the time message. -/
def finishFrame (first : Word) (s : State) : State × List Event :=
  match s.crcfix with
  | (t, none) => (t.recover, [.error .crcCorrectionFailed])
  | (t, some _) =>
    (t.descr.passFrame, [.crcFrame t.fr first, .timeData (timeDataOf t.descr.fr) first])

/-- Step 5b of R231: unpacking, RS decoding, repacking. -/
def correctFrame (first : Word) (s : State) : State × List Event :=
  match s.unpack.rsdec with
  | none => (s.unpack.recover, [.error .rsCorrectionFailed])
  | some t =>
    let r := finishFrame first t.repack
    (r.1, .rsFrame t.repack.fr first :: r.2)

/-- Step 5a of R231 and all that follows it, on the frame in FR: the state after the frame and its events. -/
def processFrame (first : Word) (s : State) : State × List Event :=
  if staticFieldsOk s.fr then
    let r := correctFrame first s
    (r.1, .rawFrame s.fr first :: r.2)
  else (s.recover, [])

/-! ## One sample -/

/-- Step 3 of R231: while AS, scan for a frame start; a hit clears AS. -/
def searchSync (s : State) : Option State :=
  if s.awaitingSync then
    match s.lookup with
    | none => none
    | some (t, some _) => some (t.setAwaitingSync false)
    | some (t, none) => some t
  else some s

/-- The guard of step 4 of R231: a frame start is known and the whole frame is in the window (R233). -/
def frameReady (s : State) : Bool :=
  !s.awaitingSync && decide (s.ms + 95 * s.cfg.spb ≤ s.cfg.len - 1)

/-- Steps 4 to 7 of R231. -/
def takeFrame (s : State) : Option (State × List Event) :=
  if frameReady s then
    match s.extract s.ms with
    | some (some (t, _)) =>
      match t.readIdx t.ms with
      | some first => some (processFrame first t)
      | none => none
    | some none => some (s, [])
    | none => none
  else some (s, [])

/-- PUSH on the state (R231): the new state and the events. -/
def State.push (s : State) (smp : Sample) : Option (State × List Event) :=
  match (s.bufpush smp).corr with
  | none => none
  | some (t, _) =>
    match searchSync t with
    | none => none
    | some u => takeFrame u

/-- PUSH smp (R231): status is always OK and the response carries bufferFull. -/
def execPush (smp : Sample) (s : State) : Host.Outcome State Fault Refusal :=
  commit s ((s.push smp).map fun r => r.1.replyWith .ok (boolData (bufferFull r.1)) r.2)

/-! ## The event port (60_exceptions.md R250) -/

/-- The frame as the 96-bit body, FR[0] in bits 95..88. -/
def frameBody (f : Frame) : BitVec 96 :=
  f[0] ++ f[1] ++ f[2] ++ f[3] ++ f[4] ++ f[5] ++ f[6] ++ f[7] ++ f[8] ++ f[9] ++ f[10] ++ f[11]

/-- The TZ code of an offset, the inverse of R215. -/
def tzCodeOf (hours : Nat) : BitVec 2 :=
  match hours with
  | 0 => 0
  | 1 => 2
  | 2 => 1
  | _ => 3

/-- The SK code of a transmitter state, the inverse of R216. -/
def skCodeOf : TransmitterState → BitVec 2
  | .normal => 0
  | .maint1Week => 1
  | .maint1Day => 2
  | .maintOver1Week => 3

/-- The FIELDS word from which a TimeData record is computed: the body of a TIME_DATA event. -/
def timeDataWord (t : TimeData) : Data :=
  packFields (BitVec.ofNat 30 (t.utcSecondsSince2000.toNat / timeResolution)) (tzCodeOf t.offset)
    t.leapSecondAnnounced t.leapSecondPositive t.timeZoneChangeAnnounced (skCodeOf t.transmitterState)

/-- The error code: 0 RsCorrectionFailed, 1 CrcCorrectionFailed (R253). -/
def errorCode : ErrorKind → BitVec 1
  | .rsCorrectionFailed => 0
  | .crcCorrectionFailed => 1

/-- `kind`, 3 bits. -/
def eventKind : Event → BitVec 3
  | .rawFrame _ _ => 0
  | .rsFrame _ _ => 1
  | .crcFrame _ _ => 2
  | .timeData _ _ => 3
  | .error _ => 4

/-- `first`, 32 bits, 0 for ERROR. -/
def eventFirst : Event → Word
  | .rawFrame _ first => first
  | .rsFrame _ first => first
  | .crcFrame _ first => first
  | .timeData _ first => first
  | .error _ => 0

/-- `body`, 96 bits. R250 gives an ERROR event's `body[0]` alone: that its bits 95..1 are 0 is the model's choice (log entry
12). -/
def eventBody : Event → BitVec 96
  | .rawFrame f _ => frameBody f
  | .rsFrame f _ => frameBody f
  | .crcFrame f _ => frameBody f
  | .timeData t _ => (timeDataWord t).setWidth 96
  | .error k => (errorCode k).setWidth 96

/-- The status code on the response port: 0 OK, 1 FAIL, 2 ILLEGAL (30_encoding.md R90). -/
def statusCode : Status → BitVec 2
  | .ok => 0
  | .fail => 1
  | .illegal => 2

end Sys2Proof.Machine
end

