-- ==== Sys2Proof/Machine/System.lean ====
section
/-! DEFINITION. The system commands (spec/46_pipeline.md): NOP, INIT. -/

namespace Sys2Proof.Machine

/-- NOP does nothing (R240). -/
def execNop (s : State) : Host.Outcome State Fault Refusal :=
  commit s (some (s.reply .ok 0))

/-- INIT puts the state back to its reset values and keeps the configuration (R241). -/
def execInit (s : State) : Host.Outcome State Fault Refusal :=
  commit s (some (s.resetCore.reply .ok 0))

end Sys2Proof.Machine
end

