-- ==== Sys2Proof/Machine/Dispatch.lean ====
section
/-! DEFINITION. The meaning of every command: one arm per constructor of `Instr`. -/

namespace Sys2Proof.Machine

def exec (i : Instr) (s : State) : Host.Outcome State Fault Refusal :=
  match i with
  | .nop => Sys2Proof.Machine.execNop s
  | .init => Sys2Proof.Machine.execInit s
  | .rsenc => Sys2Proof.Machine.execRsenc s
  | .rsdec => Sys2Proof.Machine.execRsdec s
  | .wrcw k imm => Sys2Proof.Machine.execWrcw k imm s
  | .rdcw k => Sys2Proof.Machine.execRdcw k s
  | .crcclr => Sys2Proof.Machine.execCrcclr s
  | .crcupd imm => Sys2Proof.Machine.execCrcupd imm s
  | .crcget => Sys2Proof.Machine.execCrcget s
  | .crcfr => Sys2Proof.Machine.execCrcfr s
  | .bufpush smp => Sys2Proof.Machine.execBufpush smp s
  | .corr => Sys2Proof.Machine.execCorr s
  | .rdbuf sel pos => Sys2Proof.Machine.execRdbuf sel pos s
  | .rdst sel => Sys2Proof.Machine.execRdst sel s
  | .lookup => Sys2Proof.Machine.execLookup s
  | .rdbyte b pos => Sys2Proof.Machine.execRdbyte b pos s
  | .extract pos => Sys2Proof.Machine.execExtract pos s
  | .validate => Sys2Proof.Machine.execValidate s
  | .unpack => Sys2Proof.Machine.execUnpack s
  | .repack => Sys2Proof.Machine.execRepack s
  | .crcfix => Sys2Proof.Machine.execCrcfix s
  | .descr => Sys2Proof.Machine.execDescr s
  | .fields => Sys2Proof.Machine.execFields s
  | .wrfr i' imm => Sys2Proof.Machine.execWrfr i' imm s
  | .rdfr i' => Sys2Proof.Machine.execRdfr i' s
  | .push smp => Sys2Proof.Machine.execPush smp s

end Sys2Proof.Machine
end

