-- ==== Sys2Proof/Machine/Step.lean ====
section
/-! DEFINITION. One step: the block takes the host's next input (spec/30_encoding.md R80, R85). -/

namespace Sys2Proof.Machine

/-- One step. Nothing presented: the block holds its state. Reset asserted: the reset state. A command word: the command it
decodes to, or status ILLEGAL. -/
def step (s : State) : Host.Outcome State Fault Refusal :=
  match s.port with
  | [] => idle s
  | .reset :: rest => resetInput (s.setPort rest)
  | .command w :: rest =>
    match decode w with
    | .ok i => exec i (s.setPort rest)
    | .error _ => illegalWord (s.setPort rest)

/-- `s` with the given word presented as the host's next command, in the place of what it would have presented. -/
def State.withFetchWord (s : State) (nbits w : Nat) : State :=
  s.setPort (.command (BitVec.ofNat 32 (w % 2 ^ nbits)) :: s.port.tail)

end Sys2Proof.Machine
end

