-- ==== Sys2Proof/Safety.lean ====
section
/-! DEFINITION. What a safe state is, and the words the statements use for what the spec says, written apart from the
machine's own operations. -/

namespace Sys2Proof.Machine

/-! ## Invariants -/

/-- The legal configurations (spec/00_scope.md R4, R5 a), with SPB a u8 (R30). -/
structure LegalConfig (c : Config) : Prop where
  spb_pos : 1 ≤ c.spb
  spb_u8 : c.spb ≤ 255
  half_le : c.halfWidth ≤ 32767
  len_ge : 16 ≤ c.len
  len_le : c.len ≤ 65535
  taps_fit : 15 * c.spb ≤ c.len - 1

/-- A legal configuration, a window of exactly L entries, and 0 ≤ MS ≤ L (spec/10_state.md R24). -/
structure Inv (s : State) : Prop where
  config : LegalConfig s.cfg
  window : Memory.wf s
  ms_le : s.ms ≤ s.cfg.len

/-- No flag is true above L - 1 - 15·SPB (spec/10_state.md R38). -/
def FlagsLow (s : State) : Prop :=
  ∀ p : Nat, s.cfg.len - 1 - 15 * s.cfg.spb < p → s.flg[p]? ≠ some true

/-- The sample is out of the noise band, |v| > H in ℤ (spec/30_encoding.md R76). -/
abbrev OutOfBand (c : Config) (v : Sample) : Prop := (c.halfWidth : Int) < |v.toInt|

/-- Sixteen samples SPB apart from position p, all out of band, the even ones not positive and the odd ones positive, counted
from the sync word's most significant bit (spec/20_memory.md R65). -/
def SyncAt (s : State) (p : Nat) : Prop :=
  ∀ k : Nat, k < 16 → ∃ v, s.smp[p + k * s.cfg.spb]? = some v ∧ OutOfBand s.cfg v ∧ (0 < v.toInt ↔ k % 2 = 1)

/-- Every true flag at a live position marks a sync word in the samples (spec/20_memory.md R65). -/
def FlagSound (s : State) : Prop :=
  ∀ p : Nat, s.ms ≤ p → p ≤ s.cfg.len - 1 - 15 * s.cfg.spb → s.flg[p]? = some true → SyncAt s p

/-- Every sample of the window is in band, no flag is true, and the sequencer is searching: pure noise so far. -/
structure Quiet (s : State) : Prop where
  samples : ∀ (p : Nat) (v : Sample), s.smp[p]? = some v → ¬ OutOfBand s.cfg v
  flags : ∀ p : Nat, s.flg[p]? ≠ some true
  searching : s.awaitingSync = true

/-! ## The line code (spec/30_encoding.md R77) -/

/-- The sample at position p is out of band: the bit read there is the inverse of the bit before it. -/
def toggles (s : State) (p : Nat) : Bool :=
  match s.smp[p]? with
  | some v => decide ((s.cfg.halfWidth : Int) < |v.toInt|)
  | none => false

/-- Bit n, n = 0, 1, ..., of the bits read from position `start` on when the bit before the first is `initial`. -/
def lineBit (s : State) (start : Nat) (initial : Bool) : Nat → Bool
  | 0 => initial ^^ toggles s start
  | n + 1 => lineBit s start initial n ^^ toggles s (start + (n + 1) * s.cfg.spb)

/-- Frame bit n, 0 ≤ n ≤ 95, in stream order: bit 7 - (n mod 8) of byte n / 8 (spec/00_scope.md R10). -/
def frameBit (f : Frame) (n : Nat) : Bool := (f.toList.getD (n / 8) 0).getLsbD (7 - n % 8)

/-! ## The code (spec/41_rs_codec.md R120) -/

/-- The code polynomial C(X), lowest degree first. -/
def codePoly (o : SymbolOrder) (cw : Codeword) : List Sym :=
  match o with
  | .highDegreeFirst => cw.toList.reverse
  | .lowDegreeFirst => cw.toList.drop 9 ++ cw.toList.take 9

/-- A codeword: C(α^i) = 0 for i = 1, ..., 6. -/
def IsCodeword (o : SymbolOrder) (cw : Codeword) : Prop :=
  ∀ i, 1 ≤ i → i ≤ 6 → polyEval (codePoly o cw) (alphaPow (i : Nat)) = 0

/-- In how many symbols two words differ. -/
def symbolDistance (a b : Codeword) : Nat := (List.finRange 15).countP fun j => a[j] != b[j]

/-! ## The frame (spec/45_frame_fec.md, spec/42_crc8.md) -/

/-- Eight shifts of the CRC register by the update rule of spec/42_crc8.md R152, after folding in a byte. -/
def crcFold (crc data : Byte) : Byte :=
  (fun x : Byte => if x.getLsbD 7 then (x <<< 1) ^^^ 0x07 else x <<< 1)^[8] (crc ^^^ data)

/-- The CRC of frame bytes 3..7 from INIT = 0x00 (spec/42_crc8.md R154). -/
def messageCrc (f : Frame) : Byte := [f[3], f[4], f[5], f[6], f[7]].foldl crcFold 0x00

/-- The static fields are as in every frame (spec/30_encoding.md R72). -/
def StaticFields (f : Frame) : Prop := f[0] = 0x55 ∧ f[1] = 0x55 ∧ f[2] = 0x60 ∧ f[3].toNat / 32 = 5

/-- The frame with SK1, the least significant bit of byte 7, flipped. -/
def withSk1Flipped (f : Frame) : Frame := f.set 7 (f[7] ^^^ 1)

/-- The value T of a frame as a number (spec/45_frame_fec.md R214). -/
def timeValue (f : Frame) : Nat :=
  f[3].toNat % 32 * 2 ^ 25 + f[4].toNat * 2 ^ 17 + f[5].toNat * 2 ^ 9 + f[6].toNat * 2 + f[7].toNat / 128

/-- The FIELDS word of a frame as a number (spec/45_frame_fec.md R213). -/
def fieldsValue (f : Frame) : Nat :=
  timeValue f + f[7].toNat / 32 % 4 * 2 ^ 35 + f[7].toNat / 16 % 2 * 2 ^ 37 + f[7].toNat / 8 % 2 * 2 ^ 38 +
    f[7].toNat / 4 % 2 * 2 ^ 39 + f[7].toNat % 4 * 2 ^ 40

/-! ## The opcode table (spec/30_encoding.md R86, R87; spec/opcode_table.json) -/

/-- One row: match, mask and the range checks made after the match. -/
structure TableRow where
  value : Word
  mask : Word
  inRange : Word → Bool

/-- A row of format N: the whole word is fixed (R87). -/
def fixedRow (op : Nat) : TableRow := ⟨BitVec.ofNat 32 (op * 2 ^ 24), 0xFFFFFFFF, fun _ => true⟩

/-- The 26 rows, in the table's order, for a window of `len` positions. -/
def opcodeRows (len : Nat) : List TableRow :=
  [fixedRow 0x00, fixedRow 0x01, fixedRow 0x10, fixedRow 0x11,
   ⟨0x12000000, 0xFFF0FFF0, fun w => decide (w.toNat / 2 ^ 16 % 16 ≤ 14)⟩,
   ⟨0x13000000, 0xFFF0FFFF, fun w => decide (w.toNat / 2 ^ 16 % 16 ≤ 14)⟩] ++
  [fixedRow 0x20, ⟨0x21000000, 0xFFFFFF00, fun _ => true⟩, fixedRow 0x22, fixedRow 0x23] ++
  [⟨0x30000000, 0xFFFF0000, fun _ => true⟩, fixedRow 0x31,
   ⟨0x32000000, 0xFFFC0000, fun w => decide (w.toNat / 2 ^ 16 % 4 ≤ 2) && decide (w.toNat % 2 ^ 16 ≤ len - 1)⟩,
   ⟨0x33000000, 0xFFF8FFFF, fun w => decide (w.toNat / 2 ^ 16 % 8 ≤ 6)⟩] ++
  [fixedRow 0x40, ⟨0x41000000, 0xFFFE0000, fun _ => true⟩, ⟨0x42000000, 0xFFFF0000, fun _ => true⟩] ++
  [fixedRow 0x50, fixedRow 0x51, fixedRow 0x52, fixedRow 0x53, fixedRow 0x54, fixedRow 0x55,
   ⟨0x56000000, 0xFFF0FF00, fun w => decide (w.toNat / 2 ^ 16 % 16 ≤ 11)⟩,
   ⟨0x57000000, 0xFFF0FFFF, fun w => decide (w.toNat / 2 ^ 16 % 16 ≤ 11)⟩] ++
  [⟨0x60000000, 0xFFFF0000, fun _ => true⟩]

/-- The word matches a row of the table and passes its range checks (R87). -/
def MatchesTable (len : Nat) (w : Word) : Prop := ∃ r ∈ opcodeRows len, w &&& r.mask = r.value ∧ r.inRange w = true

/-- Of the words with opcode `op` (bits 31..24) exactly the listed ones decode, each to the command beside it; every other one
is rejected. -/
def DecodesExactly (op : BitVec 8) (listed : Word → Instr → Prop) : Prop :=
  ∀ (w : Word) (i : Instr), w.extractLsb' 24 8 = op → (decode w = .ok i ↔ listed w i)

/-! ## Running commands -/

/-- A PUSH of `v` in `s` reaches step 4 of spec/46_pipeline.md R231 with a complete frame, in state `x`: `x` is the state after
BUFPUSH and CORR if a frame start was already known, else that after a LOOKUP that hits as well (the same PUSH searches and
extracts). -/
def FrameComplete (s : State) (v : Sample) (x : State) : Prop :=
  ∃ u w, exec (.bufpush v) s = .next u ∧ exec .corr u = .next w ∧
    (s.awaitingSync = false ∧ x = w ∨
      s.awaitingSync = true ∧ exec .lookup w = .next x ∧ x.resp ≠ some ⟨.fail, 0⟩) ∧
    x.ms + 95 * x.cfg.spb ≤ x.cfg.len - 1

/-- The commands one after the other, each with status OK; nothing if one stops or answers another status. -/
def runOk : List Instr → State → Option State
  | [], s => some s
  | i :: is, s =>
    match exec i s with
    | .next t => if t.resp.map Response.status = some .ok then runOk is t else none
    | .fault _ => none
    | .refused _ => none

end Sys2Proof.Machine
end

