-- ==== Sys2Proof/Certificates/Slice0/Obligations.lean ====
section
/-! DEFINITION. The statements for the provers. Each docstring names the rules of spec/ it formalises. A clause
`DecodesExactly` says which words are the command's (30_encoding.md R81, R82, R86, and the rule's own operand ranges). -/

open Sys2Proof Sys2Proof.Machine

/-! ## Encoding -/

/-- Every well-formed command's word decodes to that command (30_encoding.md R81, R82, R86). -/
def Obligations.WellFormedCommandsDecodeToThemselves : Prop :=
  ∀ i : Instr, i.wellFormed = true → decode (encode i) = .ok i

/-- A word that decodes is the encoding of the well-formed command it decodes to: no two words mean one command
(30_encoding.md R81, R82, R86). -/
def Obligations.DecodedWordIsTheCommandsEncoding : Prop :=
  ∀ (w : Word) (i : Instr), decode w = .ok i → i.wellFormed = true ∧ encode i = w

/-- The words that decode to a command legal for the configuration are exactly those that match a row of the opcode table
and pass its range checks (30_encoding.md R87). -/
def Obligations.LegalWordsAreTheTablesRows : Prop :=
  ∀ (c : Config) (w : Word), 1 ≤ c.len →
    ((∃ i, decode w = .ok i ∧ i.legalFor c = true) ↔ MatchesTable c.len w)

/-- Command words written out in the spec decode to the commands they stand for (95_test_vectors.md section 10; 30_encoding.md
R92). -/
def Obligations.WrittenOutWordsDecode : Prop :=
  decode 0x01000000 = .ok .init ∧ decode 0x1204000A = .ok (.wrcw 4 0xA) ∧ decode 0x210000AA = .ok (.crcupd 0xAA) ∧
  decode 0x3202007F = .ok (.rdbuf .idx 127) ∧ decode 0x4101036A = .ok (.rdbyte true 874) ∧
  decode 0x560B0050 = .ok (.wrfr 11 0x50) ∧ decode 0x6000B1E0 = .ok (.push (BitVec.ofInt 16 (-20000)))

/-! ## The step -/

/-- When the host presents a word that decodes to a command, the step is that command, with the word taken from the port
(30_encoding.md R85; log entry 2). -/
def Obligations.StepRunsThePresentedCommand : Prop :=
  ∀ (s : State) (w : Word) (rest : List HostInput) (i : Instr),
    s.port = .command w :: rest → decode w = .ok i → step s = exec i { s with port := rest }

/-- A word that matches no row of the table, or fails its range checks, returns status ILLEGAL with data 0, changes no state
and emits no event (60_exceptions.md R257); the word leaves the model's port (log entry 2). -/
def Obligations.IllegalWordsAnswerIllegal : Prop :=
  ∀ (s : State) (w : Word) (rest : List HostInput),
    LegalConfig s.cfg → s.port = .command w :: rest → ¬ MatchesTable s.cfg.len w →
      step s = .next { s with port := rest, resp := some ⟨.illegal, 0⟩, events := [] }

/-- With nothing presented the block holds its state (60_exceptions.md R268); that the response and the event port then
still show the latest command's output is the model's choice (log entries 1 and 2). -/
def Obligations.IdleBlockHoldsItsState : Prop :=
  ∀ s : State, LegalConfig s.cfg → s.port = [] → step s = .next s

/-- The reset input gives the reset state, the configuration kept (70_reset_and_hazards.md R280; the empty response and event
ports are the model's choice, log entry 10). -/
def Obligations.ResetInputGivesTheResetState : Prop :=
  ∀ (s : State) (rest : List HostInput), LegalConfig s.cfg → s.port = .reset :: rest →
    step s = .next { State.resetWith s.cfg with port := rest }

/-- A configuration outside the legal ranges is refused by every command and every step (00_scope.md R5 d; that
SPB is at most 255 because it is a u8 is log entry 4). -/
def Obligations.IllegalConfigurationIsRefused : Prop :=
  ∀ s : State, ¬ LegalConfig s.cfg →
    (∀ i, exec i s = .refused .illegalConfiguration) ∧ step s = .refused .illegalConfiguration

/-! ## Reset -/

/-- The reset values (10_state.md R42) of a block constructed with `c`; the empty ports are the model's choice (log entries
1 and 2). -/
def Obligations.ResetValuesAreAsListed : Prop :=
  ∀ c : Config,
    let s := State.resetWith c
    s.awaitingSync = true ∧ s.ms = c.len ∧ s.cnt = 0 ∧ s.crc = 0x00 ∧ s.cfg = c ∧
    (∀ p, p < c.len → s.smp[p]? = some 0 ∧ s.flg[p]? = some false ∧ s.idx[p]? = some 0) ∧
    (∀ i, i < 12 → s.fr.toList[i]? = some 0x00) ∧ (∀ k, k < 15 → s.cw.toList[k]? = some 0x0) ∧
    s.port = [] ∧ s.resp = none ∧ s.events = []

/-- The reset state of every legal configuration meets the invariants (10_state.md R24, R38, R42; 20_memory.md R65). -/
def Obligations.ResetMeetsTheInvariants : Prop :=
  ∀ c : Config, LegalConfig c →
    Inv (State.resetWith c) ∧ FlagsLow (State.resetWith c) ∧ FlagSound (State.resetWith c)

/-! ## Invariants and whole-machine rules -/

/-- Every step keeps the configuration legal, the window at exactly L entries and 0 ≤ MS ≤ L (10_state.md R24). -/
def Obligations.StepKeepsTheWindowWellFormed : Prop :=
  ∀ s t : State, Inv s → step s = .next t → Inv t

/-- Every step keeps the flags above L - 1 - 15·SPB false (10_state.md R38). -/
def Obligations.StepKeepsHighFlagsFalse : Prop :=
  ∀ s t : State, Inv s → FlagsLow s → step s = .next t → FlagsLow t

/-- Every step keeps each true flag at a live position a mark of a sync word in the samples (20_memory.md R65). -/
def Obligations.StepKeepsFlagsSound : Prop :=
  ∀ s t : State, Inv s → FlagsLow s → FlagSound s → step s = .next t → FlagSound t

/-- In a well-formed state no command and no step accesses a position outside the window: each ends in a next state
(20_memory.md R56; 90_conflicts.md C6). -/
def Obligations.NoAccessLeavesTheWindow : Prop :=
  ∀ s : State, Inv s → (∀ i, ∃ t, exec i s = .next t) ∧ ∃ t, step s = .next t

/-- Each piece of state is written only by the commands the spec lists for it (10_state.md R21 to R29; 20_memory.md R51). -/
def Obligations.OnlyTheListedCommandsWrite : Prop :=
  ∀ (i : Instr) (s t : State), exec i s = .next t →
    (∀ v, i ≠ .push v) → i ≠ .init →
      ((∀ v, i ≠ .bufpush v) → t.smp = s.smp ∧ t.idx = s.idx ∧ t.cnt = s.cnt) ∧
      ((∀ v, i ≠ .bufpush v) → i ≠ .corr → t.flg = s.flg) ∧
      ((∀ v, i ≠ .bufpush v) → i ≠ .lookup → t.ms = s.ms) ∧
      t.awaitingSync = s.awaitingSync ∧
      ((∀ p, i ≠ .extract p) → i ≠ .repack → i ≠ .crcfix → i ≠ .descr → (∀ j b, i ≠ .wrfr j b) → t.fr = s.fr) ∧
      ((∀ k x, i ≠ .wrcw k x) → i ≠ .unpack → i ≠ .rsenc → i ≠ .rsdec → t.cw = s.cw) ∧
      (i ≠ .crcclr → (∀ b, i ≠ .crcupd b) → i ≠ .crcfr → i ≠ .crcfix → t.crc = s.crc)

/-- No command and no step writes the configuration (10_state.md R30). That no command touches `port`, what the host will
present, is the model's own clause (log entry 2). -/
def Obligations.ConfigurationIsReadOnly : Prop :=
  (∀ (i : Instr) (s t : State), exec i s = .next t → t.cfg = s.cfg ∧ t.port = s.port) ∧
  ∀ s t : State, step s = .next t → t.cfg = s.cfg

/-- Every command but PUSH has an empty event output (60_exceptions.md R250). -/
def Obligations.OnlyPushEmitsEvents : Prop :=
  ∀ (i : Instr) (s t : State), exec i s = .next t → (∀ v, i ≠ .push v) → t.events = []

/-- The reading commands change nothing but the response (20_memory.md R58; 70_reset_and_hazards.md R290). -/
def Obligations.ReadingCommandsChangeNoState : Prop :=
  ∀ (i : Instr) (s t : State),
    ((∃ a p, i = .rdbuf a p) ∨ (∃ a, i = .rdst a) ∨ (∃ k, i = .rdcw k) ∨ (∃ j, i = .rdfr j) ∨ i = .crcget ∨
      (∃ b p, i = .rdbyte b p) ∨ i = .validate ∨ i = .fields ∨ i = .nop) →
    exec i s = .next t → ∃ r, t = { s with resp := some r, events := [] }

/-! ## System commands -/

/-- NOP does nothing and returns (OK, 0) (46_pipeline.md R240). -/
def Obligations.NopChangesNothing : Prop :=
  DecodesExactly 0x00 (fun w i => w = 0x00000000 ∧ i = .nop) ∧
  ∀ s : State, LegalConfig s.cfg → exec .nop s = .next { s with resp := some ⟨.ok, 0⟩, events := [] }

/-- INIT puts the state back to its reset values, keeps the configuration and returns (OK, 0) (46_pipeline.md R241). -/
def Obligations.InitRestoresTheResetValues : Prop :=
  DecodesExactly 0x01 (fun w i => w = 0x01000000 ∧ i = .init) ∧
  ∀ s : State, LegalConfig s.cfg →
    exec .init s = .next
      { s with
        awaitingSync := true, ms := s.cfg.len, cnt := 0, smp := List.replicate s.cfg.len 0
        flg := List.replicate s.cfg.len false, idx := List.replicate s.cfg.len 0, fr := Vector.replicate 12 0x00
        cw := Vector.replicate 15 0x0, crc := 0x00, resp := some ⟨.ok, 0⟩, events := [] }

/-! ## Reed-Solomon codec -/

/-- RSENC keeps the nine data symbols and makes CW a codeword, for both symbol orders; nothing else changes (41_rs_codec.md
R120, R122, R124, for the default symbol order; the alternative order is the model's
reading of 92_eei_decisions.md D5, log entry 5). -/
def Obligations.RsencCompletesACodeword : Prop :=
  DecodesExactly 0x10 (fun w i => w = 0x10000000 ∧ i = .rsenc) ∧
  ∀ s : State, LegalConfig s.cfg →
    ∃ cw : Codeword,
      exec .rsenc s = .next { s with cw := cw, resp := some ⟨.ok, 0⟩, events := [] } ∧
      (∀ j, j < 9 → cw.toList[j]? = s.cw.toList[j]?) ∧ IsCodeword s.cfg.order cw

/-- If all syndromes are zero, that is the word is a codeword, RSDEC returns OK and leaves CW unchanged (41_rs_codec.md
R127, for the default symbol order; the alternative order is the model's
reading of 92_eei_decisions.md D5, log entry 5). -/
def Obligations.RsdecLeavesCodewordsUnchanged : Prop :=
  ∀ s : State, LegalConfig s.cfg → IsCodeword s.cfg.order s.cw →
    exec .rsdec s = .next { s with resp := some ⟨.ok, 0⟩, events := [] }

/-- RSDEC always answers, OK or FAIL, with data 0; on FAIL CW is unchanged, and nothing else is ever written (41_rs_codec.md
R125, for the default symbol order; the alternative order is the model's
reading of 92_eei_decisions.md D5, log entry 5). -/
def Obligations.RsdecAnswersOkOrFail : Prop :=
  DecodesExactly 0x11 (fun w i => w = 0x11000000 ∧ i = .rsdec) ∧
  ∀ s : State, LegalConfig s.cfg →
    (∃ cw : Codeword, exec .rsdec s = .next { s with cw := cw, resp := some ⟨.ok, 0⟩, events := [] }) ∨
      exec .rsdec s = .next { s with resp := some ⟨.fail, 0⟩, events := [] }

/-- If RSDEC returns OK, CW is a codeword that differs from the word before in at most three symbols (41_rs_codec.md R135
ii, for the default symbol order; the alternative order is the model's
reading of 92_eei_decisions.md D5, log entry 5). -/
def Obligations.RsdecOkIsANearbyCodeword : Prop :=
  ∀ s t : State, exec .rsdec s = .next t → t.resp = some ⟨.ok, 0⟩ →
    IsCodeword s.cfg.order t.cw ∧ symbolDistance s.cw t.cw ≤ 3

/-- RSDEC restores every codeword with at most three damaged symbols (41_rs_codec.md R135 i, R139, for the default symbol
order; the alternative order is the model's
reading of 92_eei_decisions.md D5, log entry 5). -/
def Obligations.RsdecCorrectsThreeSymbolErrors : Prop :=
  ∀ (s : State) (c : Codeword), LegalConfig s.cfg → IsCodeword s.cfg.order c → symbolDistance s.cw c ≤ 3 →
    exec .rsdec s = .next { s with cw := c, resp := some ⟨.ok, 0⟩, events := [] }

/-- WRCW writes one symbol and RDCW reads one, for k = 0..14; k = 15 is illegal and changes nothing (41_rs_codec.md R137,
R138). -/
def Obligations.SymbolAccessReadsAndWrites : Prop :=
  DecodesExactly 0x12 (fun w i => ∃ (k : BitVec 4) (imm : Sym),
    k.toNat < 15 ∧ w = makeWord 0x12 (k.setWidth 8) (imm.setWidth 16) ∧ i = .wrcw k imm) ∧
  DecodesExactly 0x13 (fun w i => ∃ k : BitVec 4, k.toNat < 15 ∧ w = makeWord 0x13 (k.setWidth 8) 0 ∧ i = .rdcw k) ∧
  ∀ (s : State) (k : BitVec 4) (imm : Sym), LegalConfig s.cfg →
    (∀ h : k.toNat < 15,
      exec (.wrcw k imm) s = .next { s with cw := s.cw.set k.toNat imm, resp := some ⟨.ok, 0⟩, events := [] } ∧
      exec (.rdcw k) s = .next { s with resp := some ⟨.ok, (s.cw[k.toNat]).setWidth 64⟩, events := [] }) ∧
    (14 < k.toNat →
      exec (.wrcw k imm) s = .next { s with resp := some ⟨.illegal, 0⟩, events := [] } ∧
      exec (.rdcw k) s = .next { s with resp := some ⟨.illegal, 0⟩, events := [] })

/-! ## CRC engine -/

/-- CRCCLR writes INIT = 0x00 and CRCGET returns the register (42_crc8.md R151, R153). -/
def Obligations.CrcClearAndRead : Prop :=
  DecodesExactly 0x20 (fun w i => w = 0x20000000 ∧ i = .crcclr) ∧
  DecodesExactly 0x22 (fun w i => w = 0x22000000 ∧ i = .crcget) ∧
  ∀ s : State, LegalConfig s.cfg →
    exec .crcclr s = .next { s with crc := 0x00, resp := some ⟨.ok, 0⟩, events := [] } ∧
    exec .crcget s = .next { s with resp := some ⟨.ok, s.crc.setWidth 64⟩, events := [] }

/-- CRCUPD folds one byte into the register by eight shift steps (42_crc8.md R152). -/
def Obligations.CrcUpdateFoldsOneByte : Prop :=
  DecodesExactly 0x21 (fun w i => ∃ imm : Byte, w = makeWord 0x21 0 (imm.setWidth 16) ∧ i = .crcupd imm) ∧
  ∀ (s : State) (imm : Byte), LegalConfig s.cfg →
    exec (.crcupd imm) s = .next { s with crc := crcFold s.crc imm, resp := some ⟨.ok, 0⟩, events := [] }

/-- CRCFR computes and returns the CRC of frame bytes 3..7 from INIT (42_crc8.md R154). -/
def Obligations.FrameCrcFoldsTheMessageBytes : Prop :=
  DecodesExactly 0x23 (fun w i => w = 0x23000000 ∧ i = .crcfr) ∧
  ∀ s : State, LegalConfig s.cfg →
    exec .crcfr s =
      .next { s with crc := messageCrc s.fr, resp := some ⟨.ok, (messageCrc s.fr).setWidth 64⟩, events := [] }

/-- The CRC the machine computes over a string of bytes, CRCCLR and then one CRCUPD a byte from any state, is linear over
strings of equal length (42_crc8.md R155), and is not constant: that of the byte 0x01 is 0x07 (R152). -/
def Obligations.CrcIsLinear : Prop :=
  (∀ (s : State) (l : List (Byte × Byte)), LegalConfig s.cfg →
    ∃ t u v : State,
      runOk (.crcclr :: l.map fun p => .crcupd (p.1 ^^^ p.2)) s = some t ∧
      runOk (.crcclr :: l.map fun p => .crcupd p.1) s = some u ∧
      runOk (.crcclr :: l.map fun p => .crcupd p.2) s = some v ∧
      t.crc = u.crc ^^^ v.crc ∧
      t.crc = crcOf (l.map fun p => p.1 ^^^ p.2) ∧ u.crc = crcOf (l.map Prod.fst) ∧ v.crc = crcOf (l.map Prod.snd)) ∧
  crcOf [0x01] = 0x07

/-- A single flipped bit in frame bytes 3..7 always changes the CRC that CRCFR computes and returns (42_crc8.md R155). -/
def Obligations.SingleBitFlipChangesTheCrc : Prop :=
  ∀ (s t : State) (n : Nat), LegalConfig s.cfg → LegalConfig t.cfg → 24 ≤ n → n < 64 →
    frameBit t.fr n = !frameBit s.fr n → (∀ m, m < 96 → m ≠ n → frameBit t.fr m = frameBit s.fr m) →
      ∃ a b, exec .crcfr s = .next a ∧ exec .crcfr t = .next b ∧ a.crc ≠ b.crc ∧ a.resp ≠ b.resp

/-! ## Window and correlator -/

/-- BUFPUSH: the three arrays shift left together from MS on, the new sample, a false flag and the counter stand at L - 1,
positions below MS - 1 keep their contents, MS counts down to 0 and CNT up modulo 2^32; the response is bufferFull
(43_window_sync.md R161). -/
def Obligations.BufpushShiftsTheWindow : Prop :=
  DecodesExactly 0x30 (fun w i => ∃ v : Sample, w = makeWord 0x30 0 v ∧ i = .bufpush v) ∧
  ∀ (s : State) (v : Sample), Inv s →
    ∃ (smp : List Sample) (flg : List Bool) (idx : List Word),
      exec (.bufpush v) s = .next
        { s with
          smp := smp, flg := flg, idx := idx, ms := s.ms - 1, cnt := s.cnt + 1
          resp := some ⟨.ok, if s.ms ≤ 1 then 1 else 0⟩, events := [] } ∧
      smp.length = s.cfg.len ∧ flg.length = s.cfg.len ∧ idx.length = s.cfg.len ∧
      smp[s.cfg.len - 1]? = some v ∧ flg[s.cfg.len - 1]? = some false ∧ idx[s.cfg.len - 1]? = some s.cnt ∧
      (∀ p, s.ms ≤ p → 1 ≤ p → p < s.cfg.len →
        smp[p - 1]? = s.smp[p]? ∧ flg[p - 1]? = s.flg[p]? ∧ idx[p - 1]? = s.idx[p]?) ∧
      (∀ p, p + 1 < s.ms → smp[p]? = s.smp[p]? ∧ flg[p]? = s.flg[p]? ∧ idx[p]? = s.idx[p]?)

/-- CORR writes, at L - 1 - 15·SPB and nowhere else, whether every tap k is out of band and positive exactly for even k, and
returns it (43_window_sync.md R164, R166). -/
def Obligations.CorrStoresTheSyncMatch : Prop :=
  DecodesExactly 0x31 (fun w i => w = 0x31000000 ∧ i = .corr) ∧
  ∀ s : State, Inv s →
    ∃ m : Bool,
      exec .corr s = .next
        { s with
          flg := s.flg.set (s.cfg.len - 1 - 15 * s.cfg.spb) m, resp := some ⟨.ok, if m then 1 else 0⟩, events := [] } ∧
      (m = true ↔ ∀ k, k < 16 →
        ∃ v, s.smp[s.cfg.len - 1 - k * s.cfg.spb]? = some v ∧ OutOfBand s.cfg v ∧ (0 < v.toInt ↔ k % 2 = 0))

/-- RDBUF returns the element of the selected array at pos, and is illegal for pos > L - 1 (43_window_sync.md R170). -/
def Obligations.RdbufReadsOneElement : Prop :=
  DecodesExactly 0x32 (fun w i => ∃ (pos : BitVec 16) (a : BitVec 8) (sel : WindowArray),
    (a = 0 ∧ sel = .smp ∨ a = 1 ∧ sel = .flg ∨ a = 2 ∧ sel = .idx) ∧ w = makeWord 0x32 a pos ∧ i = .rdbuf sel pos) ∧
  ∀ (s : State) (pos : BitVec 16), Inv s →
    (pos.toNat < s.cfg.len →
      (∃ v, s.smp[pos.toNat]? = some v ∧
        exec (.rdbuf .smp pos) s = .next { s with resp := some ⟨.ok, v.setWidth 64⟩, events := [] }) ∧
      (∃ b, s.flg[pos.toNat]? = some b ∧
        exec (.rdbuf .flg pos) s = .next { s with resp := some ⟨.ok, if b then 1 else 0⟩, events := [] }) ∧
      (∃ n, s.idx[pos.toNat]? = some n ∧
        exec (.rdbuf .idx pos) s = .next { s with resp := some ⟨.ok, n.setWidth 64⟩, events := [] })) ∧
    (s.cfg.len ≤ pos.toNat →
      ∀ sel, exec (.rdbuf sel pos) s = .next { s with resp := some ⟨.illegal, 0⟩, events := [] })

/-- RDST returns the selected scalar (43_window_sync.md R171). -/
def Obligations.RdstReadsOneScalar : Prop :=
  DecodesExactly 0x33 (fun w i => ∃ (a : BitVec 8) (sel : Scalar),
    (a = 0 ∧ sel = .ms ∨ a = 1 ∧ sel = .awaitingSync ∨ a = 2 ∧ sel = .cnt ∨ a = 3 ∧ sel = .bufferFull ∨
      a = 4 ∧ sel = .spb ∨ a = 5 ∧ sel = .halfWidth ∨ a = 6 ∧ sel = .len) ∧
    w = makeWord 0x33 a 0 ∧ i = .rdst sel) ∧
  ∀ s : State, LegalConfig s.cfg →
    let answer (d : Data) := Host.Outcome.next (φ := Fault) (ρ := Refusal) { s with resp := some ⟨.ok, d⟩, events := [] }
    exec (.rdst .ms) s = answer (BitVec.ofNat 64 s.ms) ∧
    exec (.rdst .awaitingSync) s = answer (if s.awaitingSync then 1 else 0) ∧
    exec (.rdst .cnt) s = answer (s.cnt.setWidth 64) ∧
    exec (.rdst .bufferFull) s = answer (if s.ms = 0 then 1 else 0) ∧
    exec (.rdst .spb) s = answer (BitVec.ofNat 64 s.cfg.spb) ∧
    exec (.rdst .halfWidth) s = answer (BitVec.ofNat 64 s.cfg.halfWidth) ∧
    exec (.rdst .len) s = answer (BitVec.ofNat 64 s.cfg.len)

/-! ## Extraction -/

/-- LOOKUP: with no flag from MS up to L - 15·SPB it fails and sets MS there; else MS goes to the least flagged position p,
and it answers p if the two bytes there read 0x55, 0x55 (bits 0,1,0,1,...), or fails with MS = p + SPB (44_extract.md R181). -/
def Obligations.LookupScansTheFlags : Prop :=
  DecodesExactly 0x40 (fun w i => w = 0x40000000 ∧ i = .lookup) ∧
  ∀ s : State, Inv s →
    ((∀ p, s.ms ≤ p → p < s.cfg.len - 15 * s.cfg.spb → s.flg[p]? ≠ some true) →
      exec .lookup s =
        .next { s with ms := s.cfg.len - 15 * s.cfg.spb, resp := some ⟨.fail, 0⟩, events := [] }) ∧
    (∀ p, s.ms ≤ p → p < s.cfg.len - 15 * s.cfg.spb → s.flg[p]? = some true →
      (∀ q, s.ms ≤ q → q < p → s.flg[q]? ≠ some true) →
        ((∀ n, n < 16 → lineBit s p true n = decide (n % 2 = 1)) →
          exec .lookup s = .next { s with ms := p, resp := some ⟨.ok, BitVec.ofNat 64 p⟩, events := [] }) ∧
        (¬ (∀ n, n < 16 → lineBit s p true n = decide (n % 2 = 1)) →
          exec .lookup s = .next { s with ms := p + s.cfg.spb, resp := some ⟨.fail, 0⟩, events := [] }))

/-- Where the flags are sound, the two-byte check of LOOKUP cannot fail: the least flagged position is the answer
(44_extract.md R182 b). -/
def Obligations.LookupConfirmsSoundFlags : Prop :=
  ∀ (s : State) (p : Nat), Inv s → FlagSound s → s.ms ≤ p → p < s.cfg.len - 15 * s.cfg.spb →
    s.flg[p]? = some true → (∀ q, s.ms ≤ q → q < p → s.flg[q]? ≠ some true) →
      exec .lookup s = .next { s with ms := p, resp := some ⟨.ok, BitVec.ofNat 64 p⟩, events := [] }

/-- RDBYTE reads eight line bits from pos with b before the first, most significant first; it fails exactly if
pos + 7·SPB > L - 1, and changes nothing (44_extract.md R183). -/
def Obligations.RdbyteReadsEightLineBits : Prop :=
  DecodesExactly 0x41 (fun w i => ∃ (b : Bool) (pos : BitVec 16),
    w = makeWord 0x41 (if b then 1 else 0) pos ∧ i = .rdbyte b pos) ∧
  ∀ (s : State) (b : Bool) (pos : BitVec 16), Inv s →
    (s.cfg.len - 1 < pos.toNat + 7 * s.cfg.spb →
      exec (.rdbyte b pos) s = .next { s with resp := some ⟨.fail, 0⟩, events := [] }) ∧
    (pos.toNat + 7 * s.cfg.spb ≤ s.cfg.len - 1 →
      ∃ d : Data,
        exec (.rdbyte b pos) s = .next { s with resp := some ⟨.ok, d⟩, events := [] } ∧
        (∀ n, n < 8 → d.getLsbD (7 - n) = lineBit s pos.toNat b n) ∧
        d.getLsbD 8 = lineBit s pos.toNat b 7 ∧ (∀ n, 9 ≤ n → n < 16 → d.getLsbD n = false) ∧
        d.toNat / 2 ^ 16 = pos.toNat + 8 * s.cfg.spb)

/-- EXTRACT fills FR so that frame bit n is line bit n read from pos with 1 before the first; it fails exactly if the frame is
not wholly inside the window, and then FR is unchanged (44_extract.md R185). -/
def Obligations.ExtractReadsTheFrameBits : Prop :=
  DecodesExactly 0x42 (fun w i => ∃ pos : BitVec 16, w = makeWord 0x42 0 pos ∧ i = .extract pos) ∧
  ∀ (s : State) (pos : BitVec 16), Inv s →
    (s.cfg.len - 1 < pos.toNat + 95 * s.cfg.spb →
      exec (.extract pos) s = .next { s with resp := some ⟨.fail, 0⟩, events := [] }) ∧
    (pos.toNat + 95 * s.cfg.spb ≤ s.cfg.len - 1 →
      ∃ (f : Frame) (d : Data),
        exec (.extract pos) s = .next { s with fr := f, resp := some ⟨.ok, d⟩, events := [] } ∧
        (∀ n, n < 96 → frameBit f n = lineBit s pos.toNat true n) ∧
        d.getLsbD 8 = lineBit s pos.toNat true 95 ∧ (∀ n, n < 16 → n ≠ 8 → d.getLsbD n = false) ∧
        d.toNat / 2 ^ 16 = pos.toNat + 96 * s.cfg.spb)

/-! ## Frame processing -/

/-- VALIDATE answers OK exactly when the static fields hold and changes nothing (45_frame_fec.md R201). -/
def Obligations.ValidateChecksTheStaticFields : Prop :=
  DecodesExactly 0x50 (fun w i => w = 0x50000000 ∧ i = .validate) ∧
  ∀ s : State, LegalConfig s.cfg →
    (StaticFields s.fr → exec .validate s = .next { s with resp := some ⟨.ok, 0⟩, events := [] }) ∧
    (¬ StaticFields s.fr → exec .validate s = .next { s with resp := some ⟨.fail, 0⟩, events := [] })

/-- UNPACK: data symbol k is frame bits 27 + 4k .. 30 + 4k and parity symbol 9 + i is frame bits 64 + 4i .. 67 + 4i, most
significant first; FR is not changed (45_frame_fec.md R203; 30_encoding.md R73). -/
def Obligations.UnpackReadsTheSymbolBits : Prop :=
  DecodesExactly 0x51 (fun w i => w = 0x51000000 ∧ i = .unpack) ∧
  ∀ s : State, LegalConfig s.cfg →
    ∃ cw : Codeword,
      exec .unpack s = .next { s with cw := cw, resp := some ⟨.ok, 0⟩, events := [] } ∧
      (∀ k b, k < 9 → b < 4 → (cw.toList.getD k 0).getLsbD (3 - b) = frameBit s.fr (27 + 4 * k + b)) ∧
      (∀ i b, i < 6 → b < 4 → (cw.toList.getD (9 + i) 0).getLsbD (3 - b) = frameBit s.fr (64 + 4 * i + b))

/-- REPACK writes all fifteen symbols at the frame bits UNPACK reads them from and keeps every other frame bit: bytes 0..2,
the prefix, SK1 and byte 11; CW is not changed (45_frame_fec.md R205). -/
def Obligations.RepackWritesTheSymbolBits : Prop :=
  DecodesExactly 0x52 (fun w i => w = 0x52000000 ∧ i = .repack) ∧
  ∀ s : State, LegalConfig s.cfg →
    ∃ f : Frame,
      exec .repack s = .next { s with fr := f, resp := some ⟨.ok, 0⟩, events := [] } ∧
      (∀ k b, k < 9 → b < 4 → frameBit f (27 + 4 * k + b) = (s.cw.toList.getD k 0).getLsbD (3 - b)) ∧
      (∀ i b, i < 6 → b < 4 → frameBit f (64 + 4 * i + b) = (s.cw.toList.getD (9 + i) 0).getLsbD (3 - b)) ∧
      (∀ n, n < 96 → n < 27 ∨ n = 63 ∨ 88 ≤ n → frameBit f n = frameBit s.fr n)

/-- REPACK after UNPACK leaves FR as it was, and UNPACK after REPACK leaves CW as it was (45_frame_fec.md R206). -/
def Obligations.PackingRoundTrips : Prop :=
  (∀ s t u : State, exec .unpack s = .next t → exec .repack t = .next u → u.fr = s.fr) ∧
  ∀ s t u : State, exec .repack s = .next t → exec .unpack t = .next u → u.cw = s.cw

/-- CRCFIX passes a frame whose CRC matches byte 11, else tries the one candidate with SK1 flipped, else fails with FR as it
was; CRC holds the last CRC computed (45_frame_fec.md R207). -/
def Obligations.CrcfixTriesTheSk1Flip : Prop :=
  DecodesExactly 0x53 (fun w i => w = 0x53000000 ∧ i = .crcfix) ∧
  ∀ s : State, LegalConfig s.cfg →
    (messageCrc s.fr = s.fr[11] →
      exec .crcfix s = .next { s with crc := messageCrc s.fr, resp := some ⟨.ok, 0⟩, events := [] }) ∧
    (messageCrc s.fr ≠ s.fr[11] → messageCrc (withSk1Flipped s.fr) = s.fr[11] →
      exec .crcfix s = .next
        { s with
          fr := withSk1Flipped s.fr, crc := messageCrc (withSk1Flipped s.fr), resp := some ⟨.ok, 1⟩, events := [] }) ∧
    (messageCrc s.fr ≠ s.fr[11] → messageCrc (withSk1Flipped s.fr) ≠ s.fr[11] →
      exec .crcfix s = .next
        { s with crc := messageCrc (withSk1Flipped s.fr), resp := some ⟨.fail, 0⟩, events := [] })

/-- A frame with a right CRC byte whose SK1 alone was flipped is restored by CRCFIX (45_frame_fec.md R208). -/
def Obligations.CrcfixRestoresAFlippedSk1 : Prop :=
  ∀ (s : State) (f : Frame), LegalConfig s.cfg → messageCrc f = f[11] → s.fr = withSk1Flipped f →
    exec .crcfix s = .next { s with fr := f, crc := f[11], resp := some ⟨.ok, 1⟩, events := [] }

/-- DESCR XORs the key into bytes 3..7 and changes nothing else (45_frame_fec.md R210); applied twice it restores FR (R211). -/
def Obligations.DescrXorsTheKey : Prop :=
  DecodesExactly 0x54 (fun w i => w = 0x54000000 ∧ i = .descr) ∧
  ∀ s : State, LegalConfig s.cfg →
    ∃ f : Frame,
      exec .descr s = .next { s with fr := f, resp := some ⟨.ok, 0⟩, events := [] } ∧
      (∀ j : Fin 12, f[j] = s.fr[j] ^^^ [0, 0, 0, 0x0A, 0x47, 0x55, 0x4D, 0x2B, 0, 0, 0, 0].getD j.val (0 : Byte)) ∧
      exec .descr { s with fr := f } = .next { s with resp := some ⟨.ok, 0⟩, events := [] }

/-- FIELDS returns T, TZ, LS, LSS, TZC and SK in their places and changes nothing (45_frame_fec.md R213, R214). -/
def Obligations.FieldsReturnsTheMessageFields : Prop :=
  DecodesExactly 0x55 (fun w i => w = 0x55000000 ∧ i = .fields) ∧
  ∀ s : State, LegalConfig s.cfg →
    ∃ d : Data, exec .fields s = .next { s with resp := some ⟨.ok, d⟩, events := [] } ∧ d.toNat = fieldsValue s.fr

/-- WRFR writes one frame byte and RDFR reads one, for i = 0..11; a higher i is illegal and changes nothing (45_frame_fec.md
R218, R219). -/
def Obligations.FrameByteAccessReadsAndWrites : Prop :=
  DecodesExactly 0x56 (fun w i => ∃ (j : BitVec 4) (imm : Byte),
    j.toNat < 12 ∧ w = makeWord 0x56 (j.setWidth 8) (imm.setWidth 16) ∧ i = .wrfr j imm) ∧
  DecodesExactly 0x57 (fun w i => ∃ j : BitVec 4, j.toNat < 12 ∧ w = makeWord 0x57 (j.setWidth 8) 0 ∧ i = .rdfr j) ∧
  ∀ (s : State) (i : BitVec 4) (imm : Byte), LegalConfig s.cfg →
    (∀ h : i.toNat < 12,
      exec (.wrfr i imm) s = .next { s with fr := s.fr.set i.toNat imm, resp := some ⟨.ok, 0⟩, events := [] } ∧
      exec (.rdfr i) s = .next { s with resp := some ⟨.ok, (s.fr[i.toNat]).setWidth 64⟩, events := [] }) ∧
    (11 < i.toNat →
      exec (.wrfr i imm) s = .next { s with resp := some ⟨.illegal, 0⟩, events := [] } ∧
      exec (.rdfr i) s = .next { s with resp := some ⟨.illegal, 0⟩, events := [] })

/-- The encode direction (UNPACK, RSENC, REPACK, CRCFR, WRFR 11 of the CRC returned) keeps frame bits 0..63 of a frame with
valid static fields, and the decode direction (VALIDATE, UNPACK, RSDEC, REPACK, CRCFIX) then answers OK at every step, CRCFIX
with data 0, and leaves FR unchanged (45_frame_fec.md R220, for the default symbol order; the alternative order is the model's
reading of 92_eei_decisions.md D5, log entry 5). -/
def Obligations.EncodedFramesDecodeUnchanged : Prop :=
  ∀ s : State, LegalConfig s.cfg → StaticFields s.fr →
    ∃ (t u v : State) (c : Byte),
      runOk [.unpack, .rsenc, .repack, .crcfr] s = some t ∧ t.resp = some ⟨.ok, c.setWidth 64⟩ ∧
      runOk [.wrfr 11 c] t = some u ∧ (∀ n, n < 64 → frameBit u.fr n = frameBit s.fr n) ∧
      runOk [.validate, .unpack, .rsdec, .repack, .crcfix] u = some v ∧ v.fr = u.fr ∧ v.resp = some ⟨.ok, 0⟩

/-- The TimeData record of a frame: 3·T seconds, the epoch offset, the offset in hours and the transmitter state from their
codes, the three bits (45_frame_fec.md R215, R216, R217). -/
def Obligations.TimeDataFollowsTheFields : Prop :=
  ∀ f : Frame,
    let t := timeDataOf f
    t.utcSecondsSince2000.toNat = 3 * timeValue f ∧
    t.unixSeconds.toNat = 3 * timeValue f + 946684800 ∧
    t.offset = [0, 2, 1, 3].getD (f[7].toNat / 32 % 4) 0 ∧
    t.timeZoneChangeAnnounced = f[7].getLsbD 2 ∧ t.leapSecondAnnounced = f[7].getLsbD 4 ∧
    t.leapSecondPositive = f[7].getLsbD 3 ∧
    t.transmitterState =
      [TransmitterState.normal, .maint1Week, .maint1Day, .maintOver1Week].getD (f[7].toNat % 4) .normal

/-- The event port's word of an event: kind, first, and the 96-bit body with FR[0] in bits 95..88, the FIELDS word for
TIME_DATA and the error code in bit 0 for ERROR (60_exceptions.md R250, R253). That bits 95..1 of an ERROR body are 0 is the
model's choice: R250 gives bit 0 alone (log entry 12). -/
def Obligations.EventPortEncodesTheEvent : Prop :=
  ∀ (f : Frame) (first : Word),
    (∀ e, e = Event.rawFrame f first ∨ e = Event.rsFrame f first ∨ e = Event.crcFrame f first →
      eventFirst e = first ∧ ∀ n, n < 96 → (eventBody e).getLsbD (95 - n) = frameBit f n) ∧
    eventKind (.rawFrame f first) = 0 ∧ eventKind (.rsFrame f first) = 1 ∧ eventKind (.crcFrame f first) = 2 ∧
    eventKind (.timeData (timeDataOf f) first) = 3 ∧ eventFirst (.timeData (timeDataOf f) first) = first ∧
    (eventBody (.timeData (timeDataOf f) first)).toNat = fieldsValue f ∧
    (∀ k, eventKind (.error k) = 4 ∧ eventFirst (.error k) = 0) ∧
    eventBody (.error .rsCorrectionFailed) = 0 ∧ eventBody (.error .crcCorrectionFailed) = 1

/-! ## The sequencer -/

/-- PUSH is BUFPUSH, then CORR, then LOOKUP while the sequencer waits for a sync word: the window and the counter are those
after BUFPUSH and CORR; a missed LOOKUP leaves MS where it set it and the sequencer waiting, a hit or an earlier one whose
frame is not yet complete leaves the sequencer holding the frame start, all without an event and with FR, CW and CRC as they
were (46_pipeline.md R231 steps 1 to 4, R233). -/
def Obligations.PushRunsTheWindowCommandsInOrder : Prop :=
  ∀ (s u w : State) (v : Sample), Inv s → exec (.bufpush v) s = .next u → exec .corr u = .next w →
    ∃ t, exec (.push v) s = .next t ∧
      t.smp = w.smp ∧ t.flg = w.flg ∧ t.idx = w.idx ∧ t.cnt = w.cnt ∧ t.cfg = s.cfg ∧ t.port = s.port ∧
      (∀ x, s.awaitingSync = true → exec .lookup w = .next x → x.resp = some ⟨.fail, 0⟩ →
        t.ms = x.ms ∧ t.awaitingSync = true ∧ t.events = [] ∧ t.fr = s.fr ∧ t.cw = s.cw ∧ t.crc = s.crc) ∧
      (∀ x, s.awaitingSync = true → exec .lookup w = .next x → x.resp ≠ some ⟨.fail, 0⟩ →
        s.cfg.len - 1 < x.ms + 95 * s.cfg.spb →
        t.ms = x.ms ∧ t.awaitingSync = false ∧ t.events = [] ∧ t.fr = s.fr ∧ t.cw = s.cw ∧ t.crc = s.crc) ∧
      (s.awaitingSync = false → s.cfg.len - 1 < w.ms + 95 * s.cfg.spb →
        t.ms = w.ms ∧ t.awaitingSync = false ∧ t.events = [] ∧ t.fr = s.fr ∧ t.cw = s.cw ∧ t.crc = s.crc)

/-- PUSH always answers status OK with bufferFull, counts CNT up by one, and its event list is one of the four legal ones
(60_exceptions.md R252; 46_pipeline.md R231). -/
def Obligations.PushEmitsALegalEventList : Prop :=
  DecodesExactly 0x60 (fun w i => ∃ v : Sample, w = makeWord 0x60 0 v ∧ i = .push v) ∧
  ∀ (s : State) (v : Sample), Inv s →
    ∃ t, exec (.push v) s = .next t ∧ t.resp = some ⟨.ok, if t.ms = 0 then 1 else 0⟩ ∧ t.cnt = s.cnt + 1 ∧
      (t.events = [] ∨
        (∃ f n, t.events = [.rawFrame f n, .error .rsCorrectionFailed]) ∨
        (∃ f g n, t.events = [.rawFrame f n, .rsFrame g n, .error .crcCorrectionFailed]) ∨
        ∃ f g h d n, t.events = [.rawFrame f n, .rsFrame g n, .crcFrame h n, .timeData d n])

/-- What a PUSH does with a complete frame, and the registers after it.

First, by the unit commands, from the state x of step 4 (46_pipeline.md R231 steps 4 to 7, R233 to R239; 60_exceptions.md R254,
R255, R262): e is x after EXTRACT at MS, its frame the line bits read from MS, `first` the index at MS. Wrong static fields: no
event, MS one further, FR the bytes extracted. Else, UNPACK and RSDEC: if RSDEC fails, RAW_FRAME and ERROR(RsCorrectionFailed),
MS one further. Else, REPACK and CRCFIX: if CRCFIX fails, RAW_FRAME, RS_FRAME and ERROR(CrcCorrectionFailed), MS one further.
Else, DESCR: the four events, MS past the frame. RS_FRAME carries the frame after REPACK, CRC_FRAME that after CRCFIX. In every
case AS is true after it and the window, CNT and the configuration are those of x.

Second, by the events (46_pipeline.md R239): without events CW and CRC are unchanged, and FR too unless it was filled with a
frame whose static fields are wrong; after an RS failure FR is the raw frame and CW its received symbols; after a CRC failure FR
is the RS frame, CW its symbols and CRC that of the frame with SK1 flipped; after a success FR is the descrambled CRC frame, CW
its symbols, CRC its byte 11. -/
def Obligations.PushLeavesTheFrameRegisters : Prop :=
  (∀ (s x : State) (v : Sample), Inv s → FrameComplete s v x →
    ∃ (t e : State) (first : Word),
      exec (.push v) s = .next t ∧ exec (.extract (BitVec.ofNat 16 x.ms)) x = .next e ∧ x.idx[x.ms]? = some first ∧
      (∀ n, n < 96 → frameBit e.fr n = lineBit x x.ms true n) ∧
      t.awaitingSync = true ∧ t.smp = x.smp ∧ t.flg = x.flg ∧ t.idx = x.idx ∧ t.cnt = x.cnt ∧ t.cfg = s.cfg ∧
      t.port = s.port ∧
      (¬ StaticFields e.fr → t.events = [] ∧ t.ms = x.ms + 1 ∧ t.fr = e.fr ∧ t.cw = s.cw ∧ t.crc = s.crc) ∧
      (StaticFields e.fr → ∃ p d, exec .unpack e = .next p ∧ exec .rsdec p = .next d ∧
        (d.resp = some ⟨.fail, 0⟩ →
          t.events = [.rawFrame e.fr first, .error .rsCorrectionFailed] ∧ t.ms = x.ms + 1 ∧ t.fr = e.fr ∧ t.cw = p.cw ∧
          t.crc = s.crc) ∧
        (d.resp ≠ some ⟨.fail, 0⟩ → ∃ r c, exec .repack d = .next r ∧ exec .crcfix r = .next c ∧
          (c.resp = some ⟨.fail, 0⟩ →
            t.events = [.rawFrame e.fr first, .rsFrame r.fr first, .error .crcCorrectionFailed] ∧ t.ms = x.ms + 1 ∧
            t.fr = r.fr ∧ t.cw = d.cw ∧ t.crc = c.crc) ∧
          (c.resp ≠ some ⟨.fail, 0⟩ → ∃ g, exec .descr c = .next g ∧
            t.events = [.rawFrame e.fr first, .rsFrame r.fr first, .crcFrame c.fr first,
              .timeData (timeDataOf g.fr) first] ∧
            t.ms = min (x.ms + 96 * x.cfg.spb) x.cfg.len ∧ t.fr = g.fr ∧ t.cw = d.cw ∧ t.crc = c.crc)))) ∧
  ∀ (s t : State) (v : Sample), Inv s → exec (.push v) s = .next t →
    (t.events = [] → t.cw = s.cw ∧ t.crc = s.crc ∧ (t.fr = s.fr ∨ ¬ StaticFields t.fr)) ∧
    (∀ f n, t.events = [.rawFrame f n, .error .rsCorrectionFailed] →
      t.fr = f ∧ t.cw = unpackFrame f ∧ t.crc = s.crc ∧ t.awaitingSync = true) ∧
    (∀ f g n, t.events = [.rawFrame f n, .rsFrame g n, .error .crcCorrectionFailed] →
      t.fr = g ∧ t.cw = unpackFrame g ∧ t.crc = messageCrc (withSk1Flipped g) ∧ t.awaitingSync = true) ∧
    (∀ f g h d n, t.events = [.rawFrame f n, .rsFrame g n, .crcFrame h n, .timeData d n] →
      t.fr = descramble h ∧ t.cw = unpackFrame h ∧ t.crc = h[11] ∧ d = timeDataOf t.fr ∧ t.awaitingSync = true)

/-- A clean frame in the window is decoded, whether its start was already known or is found by the same PUSH (46_pipeline.md R231
steps 3 and 4; 92_eei_decisions.md D27): with x the state of step 4, the frame wholly in x's window from x's MS on, valid
static fields, a codeword and the right CRC, PUSH emits the four events with the index at MS and the time data of the
descrambled frame, and goes past the frame (46_pipeline.md R231, R233 to R235, R238, R239; the codeword is that of the default
symbol order; the alternative order is the model's reading of D5, log entry 5). -/
def Obligations.PushDecodesACleanFrame : Prop :=
  ∀ (s x : State) (v : Sample) (f : Frame) (first : Word),
    Inv s → FrameComplete s v x →
    (∀ n, n < 96 → lineBit x x.ms true n = frameBit f n) → x.idx[x.ms]? = some first →
    StaticFields f → IsCodeword s.cfg.order (unpackFrame f) → messageCrc f = f[11] →
      ∃ t, exec (.push v) s = .next t ∧
        t.events = [.rawFrame f first, .rsFrame f first, .crcFrame f first, .timeData (timeDataOf (descramble f)) first] ∧
        t.fr = descramble f ∧ t.cw = unpackFrame f ∧ t.crc = f[11] ∧ t.awaitingSync = true ∧
        t.ms = min (x.ms + 96 * x.cfg.spb) x.cfg.len ∧ t.smp = x.smp ∧ t.flg = x.flg ∧ t.idx = x.idx ∧ t.cnt = x.cnt ∧
        t.cfg = s.cfg ∧ t.port = s.port ∧ t.resp = some ⟨.ok, 0⟩

/-- Pure noise: from a window of in-band samples with no flag, a PUSH of an in-band sample sets no flag, fires no event, goes
on searching and leaves MS = L - 15·SPB (43_window_sync.md R168; 46_pipeline.md R242 b). -/
def Obligations.NoiseNeverFiresAnEvent : Prop :=
  ∀ (s : State) (v : Sample), Inv s → Quiet s → ¬ OutOfBand s.cfg v →
    ∃ t, exec (.push v) s = .next t ∧ Quiet t ∧ t.events = [] ∧ t.ms = s.cfg.len - 15 * s.cfg.spb

/-- PUSH never returns bufferFull when L ≥ 95·SPB + 1: MS ≥ L - 95·SPB holds at reset and every PUSH keeps it
(46_pipeline.md R242 d). -/
def Obligations.PushNeverFillsAWideWindow : Prop :=
  (∀ c : Config, (State.resetWith c).cfg.len - 95 * c.spb ≤ (State.resetWith c).ms) ∧
  ∀ (s : State) (v : Sample), Inv s → 95 * s.cfg.spb + 1 ≤ s.cfg.len → s.cfg.len - 95 * s.cfg.spb ≤ s.ms →
    ∃ t, exec (.push v) s = .next t ∧ s.cfg.len - 95 * s.cfg.spb ≤ t.ms ∧ t.resp = some ⟨.ok, 0⟩

/-- With L ≤ 95·SPB a sequencer that has found a sync word never extracts: PUSH emits no event, AS stays false, MS falls to 0
and bufferFull is returned from then on (70_reset_and_hazards.md R291 b). -/
def Obligations.PushIsStuckInANarrowWindow : Prop :=
  ∀ (s : State) (v : Sample), Inv s → s.cfg.len ≤ 95 * s.cfg.spb → s.awaitingSync = false →
    ∃ t, exec (.push v) s = .next t ∧ t.events = [] ∧ t.awaitingSync = false ∧ t.ms = s.ms - 1 ∧
      t.resp = some ⟨.ok, if s.ms ≤ 1 then 1 else 0⟩ ∧ t.fr = s.fr ∧ t.cw = s.cw ∧ t.crc = s.crc

/-! ## Field arithmetic -/

/-- The tables are the powers of α by shift and reduction, their logarithms with the sentinel -1, and a generator polynomial
with the roots α^1..α^6 (40_gf16.md R101, R102; 41_rs_codec.md R121); and powers: α^e is the power
of the base 2, a^0 = 1, a^(n+1) = a^n·a for every a, so 0^e = 0 for e > 0, and a^(-n) is the inverse of a^n for a ≠ 0
(40_gf16.md R106). -/
def Obligations.FieldTablesAreAsConstructed : Prop :=
  alphaTo.length = 15 ∧ alphaTo[0]? = some 1 ∧
  (∀ i : Nat, i < 14 → ∃ a : Sym, alphaTo[i]? = some a ∧
    alphaTo[i + 1]? = some (if a.getLsbD 3 then (a <<< 1) ^^^ 0x3 else a <<< 1)) ∧
  indexOf.length = 16 ∧ indexOf[0]? = some (-1) ∧
  (∀ i : Nat, i < 15 → ∃ a : Sym, alphaTo[i]? = some a ∧ indexOf[a.toNat]? = some (i : Int)) ∧
  gpoly.length = 7 ∧ gpoly[6]? = some 1 ∧ (∀ i : Nat, 1 ≤ i → i ≤ 6 → polyEval gpoly (alphaPow (i : Int)) = 0) ∧
  (∀ e : Int, gfPow 2 e = alphaPow e) ∧ (∀ a : Sym, gfPow a 0 = 1) ∧
  (∀ (a : Sym) (n : Nat), gfPow a ((n + 1 : Nat) : Int) = gfMul (gfPow a (n : Int)) a) ∧
  ∀ (a : Sym) (n : Nat), a ≠ 0 → gfMul (gfPow a (-(n : Int))) (gfPow a (n : Int)) = 1
end

