-- ==== Sys2Proof/Laws/Decode.lean ====
section
/-! SUPPORT. The three fields of a command word are read back from the word they were put into. -/

namespace Sys2Proof

@[simp] theorem opField_makeWord (op a : BitVec 8) (d : BitVec 16) : opField (makeWord op a d) = op := by
  apply BitVec.eq_of_getLsbD_eq
  intro i hi
  simp only [opField, makeWord, BitVec.getLsbD_extractLsb', BitVec.getLsbD_append]
  have h1 : ¬ 24 + i < 16 := by omega
  have h2 : ¬ 24 + i - 16 < 8 := by omega
  have h3 : 24 + i - 16 - 8 = i := by omega
  simp [h1, h2, h3, hi]

@[simp] theorem aField_makeWord (op a : BitVec 8) (d : BitVec 16) : aField (makeWord op a d) = a := by
  apply BitVec.eq_of_getLsbD_eq
  intro i hi
  simp only [aField, makeWord, BitVec.getLsbD_extractLsb', BitVec.getLsbD_append]
  have h1 : ¬ 16 + i < 16 := by omega
  have h2 : 16 + i - 16 = i := by omega
  simp [h1, h2, hi]

@[simp] theorem dField_makeWord (op a : BitVec 8) (d : BitVec 16) : dField (makeWord op a d) = d := by
  apply BitVec.eq_of_getLsbD_eq
  intro i hi
  simp only [dField, makeWord, BitVec.getLsbD_extractLsb', BitVec.getLsbD_append]
  simp [hi]

/-- A word is made of its three fields. -/
theorem makeWord_fields (w : Word) : makeWord (opField w) (aField w) (dField w) = w := by
  apply BitVec.eq_of_getLsbD_eq
  intro i hi
  simp only [opField, aField, dField, makeWord, BitVec.getLsbD_extractLsb', BitVec.getLsbD_append]
  by_cases h : i < 16
  · simp [h]
  · by_cases h' : i - 16 < 8
    · have e : 16 + (i - 16) = i := by omega
      simp [h, h', e]
    · have e : 24 + (i - 16 - 8) = i := by omega
      have l : i - 16 - 8 < 8 := by omega
      simp [h, h', e, l]

end Sys2Proof
end

