-- ==== Sys2Proof/Laws/State.lean ====
section
/-! SUPPORT. One lemma per field per update of the state: what each update writes, and that it leaves the rest. -/

namespace Sys2Proof.Machine

variable (s : State)

/-! `setMs` -/

@[simp] theorem State.setMs_cfg (p : Nat) : (s.setMs p).cfg = s.cfg := rfl
@[simp] theorem State.setMs_smp (p : Nat) : (s.setMs p).smp = s.smp := rfl
@[simp] theorem State.setMs_flg (p : Nat) : (s.setMs p).flg = s.flg := rfl
@[simp] theorem State.setMs_idx (p : Nat) : (s.setMs p).idx = s.idx := rfl
@[simp] theorem State.setMs_ms (p : Nat) : (s.setMs p).ms = p := rfl
@[simp] theorem State.setMs_cnt (p : Nat) : (s.setMs p).cnt = s.cnt := rfl
@[simp] theorem State.setMs_awaitingSync (p : Nat) : (s.setMs p).awaitingSync = s.awaitingSync := rfl
@[simp] theorem State.setMs_fr (p : Nat) : (s.setMs p).fr = s.fr := rfl
@[simp] theorem State.setMs_cw (p : Nat) : (s.setMs p).cw = s.cw := rfl
@[simp] theorem State.setMs_crc (p : Nat) : (s.setMs p).crc = s.crc := rfl
@[simp] theorem State.setMs_port (p : Nat) : (s.setMs p).port = s.port := rfl
@[simp] theorem State.setMs_resp (p : Nat) : (s.setMs p).resp = s.resp := rfl
@[simp] theorem State.setMs_events (p : Nat) : (s.setMs p).events = s.events := rfl

/-! `setAwaitingSync` -/

@[simp] theorem State.setAwaitingSync_cfg (b : Bool) : (s.setAwaitingSync b).cfg = s.cfg := rfl
@[simp] theorem State.setAwaitingSync_smp (b : Bool) : (s.setAwaitingSync b).smp = s.smp := rfl
@[simp] theorem State.setAwaitingSync_flg (b : Bool) : (s.setAwaitingSync b).flg = s.flg := rfl
@[simp] theorem State.setAwaitingSync_idx (b : Bool) : (s.setAwaitingSync b).idx = s.idx := rfl
@[simp] theorem State.setAwaitingSync_ms (b : Bool) : (s.setAwaitingSync b).ms = s.ms := rfl
@[simp] theorem State.setAwaitingSync_cnt (b : Bool) : (s.setAwaitingSync b).cnt = s.cnt := rfl
@[simp] theorem State.setAwaitingSync_awaitingSync (b : Bool) : (s.setAwaitingSync b).awaitingSync = b := rfl
@[simp] theorem State.setAwaitingSync_fr (b : Bool) : (s.setAwaitingSync b).fr = s.fr := rfl
@[simp] theorem State.setAwaitingSync_cw (b : Bool) : (s.setAwaitingSync b).cw = s.cw := rfl
@[simp] theorem State.setAwaitingSync_crc (b : Bool) : (s.setAwaitingSync b).crc = s.crc := rfl
@[simp] theorem State.setAwaitingSync_port (b : Bool) : (s.setAwaitingSync b).port = s.port := rfl
@[simp] theorem State.setAwaitingSync_resp (b : Bool) : (s.setAwaitingSync b).resp = s.resp := rfl
@[simp] theorem State.setAwaitingSync_events (b : Bool) : (s.setAwaitingSync b).events = s.events := rfl

/-! `setFr` -/

@[simp] theorem State.setFr_cfg (f : Frame) : (s.setFr f).cfg = s.cfg := rfl
@[simp] theorem State.setFr_smp (f : Frame) : (s.setFr f).smp = s.smp := rfl
@[simp] theorem State.setFr_flg (f : Frame) : (s.setFr f).flg = s.flg := rfl
@[simp] theorem State.setFr_idx (f : Frame) : (s.setFr f).idx = s.idx := rfl
@[simp] theorem State.setFr_ms (f : Frame) : (s.setFr f).ms = s.ms := rfl
@[simp] theorem State.setFr_cnt (f : Frame) : (s.setFr f).cnt = s.cnt := rfl
@[simp] theorem State.setFr_awaitingSync (f : Frame) : (s.setFr f).awaitingSync = s.awaitingSync := rfl
@[simp] theorem State.setFr_fr (f : Frame) : (s.setFr f).fr = f := rfl
@[simp] theorem State.setFr_cw (f : Frame) : (s.setFr f).cw = s.cw := rfl
@[simp] theorem State.setFr_crc (f : Frame) : (s.setFr f).crc = s.crc := rfl
@[simp] theorem State.setFr_port (f : Frame) : (s.setFr f).port = s.port := rfl
@[simp] theorem State.setFr_resp (f : Frame) : (s.setFr f).resp = s.resp := rfl
@[simp] theorem State.setFr_events (f : Frame) : (s.setFr f).events = s.events := rfl

/-! `setCw` -/

@[simp] theorem State.setCw_cfg (w : Codeword) : (s.setCw w).cfg = s.cfg := rfl
@[simp] theorem State.setCw_smp (w : Codeword) : (s.setCw w).smp = s.smp := rfl
@[simp] theorem State.setCw_flg (w : Codeword) : (s.setCw w).flg = s.flg := rfl
@[simp] theorem State.setCw_idx (w : Codeword) : (s.setCw w).idx = s.idx := rfl
@[simp] theorem State.setCw_ms (w : Codeword) : (s.setCw w).ms = s.ms := rfl
@[simp] theorem State.setCw_cnt (w : Codeword) : (s.setCw w).cnt = s.cnt := rfl
@[simp] theorem State.setCw_awaitingSync (w : Codeword) : (s.setCw w).awaitingSync = s.awaitingSync := rfl
@[simp] theorem State.setCw_fr (w : Codeword) : (s.setCw w).fr = s.fr := rfl
@[simp] theorem State.setCw_cw (w : Codeword) : (s.setCw w).cw = w := rfl
@[simp] theorem State.setCw_crc (w : Codeword) : (s.setCw w).crc = s.crc := rfl
@[simp] theorem State.setCw_port (w : Codeword) : (s.setCw w).port = s.port := rfl
@[simp] theorem State.setCw_resp (w : Codeword) : (s.setCw w).resp = s.resp := rfl
@[simp] theorem State.setCw_events (w : Codeword) : (s.setCw w).events = s.events := rfl

/-! `setCrc` -/

@[simp] theorem State.setCrc_cfg (v : Byte) : (s.setCrc v).cfg = s.cfg := rfl
@[simp] theorem State.setCrc_smp (v : Byte) : (s.setCrc v).smp = s.smp := rfl
@[simp] theorem State.setCrc_flg (v : Byte) : (s.setCrc v).flg = s.flg := rfl
@[simp] theorem State.setCrc_idx (v : Byte) : (s.setCrc v).idx = s.idx := rfl
@[simp] theorem State.setCrc_ms (v : Byte) : (s.setCrc v).ms = s.ms := rfl
@[simp] theorem State.setCrc_cnt (v : Byte) : (s.setCrc v).cnt = s.cnt := rfl
@[simp] theorem State.setCrc_awaitingSync (v : Byte) : (s.setCrc v).awaitingSync = s.awaitingSync := rfl
@[simp] theorem State.setCrc_fr (v : Byte) : (s.setCrc v).fr = s.fr := rfl
@[simp] theorem State.setCrc_cw (v : Byte) : (s.setCrc v).cw = s.cw := rfl
@[simp] theorem State.setCrc_crc (v : Byte) : (s.setCrc v).crc = v := rfl
@[simp] theorem State.setCrc_port (v : Byte) : (s.setCrc v).port = s.port := rfl
@[simp] theorem State.setCrc_resp (v : Byte) : (s.setCrc v).resp = s.resp := rfl
@[simp] theorem State.setCrc_events (v : Byte) : (s.setCrc v).events = s.events := rfl

/-! `setCnt` -/

@[simp] theorem State.setCnt_cfg (n : Word) : (s.setCnt n).cfg = s.cfg := rfl
@[simp] theorem State.setCnt_smp (n : Word) : (s.setCnt n).smp = s.smp := rfl
@[simp] theorem State.setCnt_flg (n : Word) : (s.setCnt n).flg = s.flg := rfl
@[simp] theorem State.setCnt_idx (n : Word) : (s.setCnt n).idx = s.idx := rfl
@[simp] theorem State.setCnt_ms (n : Word) : (s.setCnt n).ms = s.ms := rfl
@[simp] theorem State.setCnt_cnt (n : Word) : (s.setCnt n).cnt = n := rfl
@[simp] theorem State.setCnt_awaitingSync (n : Word) : (s.setCnt n).awaitingSync = s.awaitingSync := rfl
@[simp] theorem State.setCnt_fr (n : Word) : (s.setCnt n).fr = s.fr := rfl
@[simp] theorem State.setCnt_cw (n : Word) : (s.setCnt n).cw = s.cw := rfl
@[simp] theorem State.setCnt_crc (n : Word) : (s.setCnt n).crc = s.crc := rfl
@[simp] theorem State.setCnt_port (n : Word) : (s.setCnt n).port = s.port := rfl
@[simp] theorem State.setCnt_resp (n : Word) : (s.setCnt n).resp = s.resp := rfl
@[simp] theorem State.setCnt_events (n : Word) : (s.setCnt n).events = s.events := rfl

/-! `setWindow` -/

@[simp] theorem State.setWindow_cfg (a : List Sample) (b : List Bool) (c : List Word) : (s.setWindow a b c).cfg = s.cfg := rfl
@[simp] theorem State.setWindow_smp (a : List Sample) (b : List Bool) (c : List Word) : (s.setWindow a b c).smp = a := rfl
@[simp] theorem State.setWindow_flg (a : List Sample) (b : List Bool) (c : List Word) : (s.setWindow a b c).flg = b := rfl
@[simp] theorem State.setWindow_idx (a : List Sample) (b : List Bool) (c : List Word) : (s.setWindow a b c).idx = c := rfl
@[simp] theorem State.setWindow_ms (a : List Sample) (b : List Bool) (c : List Word) : (s.setWindow a b c).ms = s.ms := rfl
@[simp] theorem State.setWindow_cnt (a : List Sample) (b : List Bool) (c : List Word) : (s.setWindow a b c).cnt = s.cnt := rfl
@[simp] theorem State.setWindow_awaitingSync (a : List Sample) (b : List Bool) (c : List Word) : (s.setWindow a b c).awaitingSync = s.awaitingSync := rfl
@[simp] theorem State.setWindow_fr (a : List Sample) (b : List Bool) (c : List Word) : (s.setWindow a b c).fr = s.fr := rfl
@[simp] theorem State.setWindow_cw (a : List Sample) (b : List Bool) (c : List Word) : (s.setWindow a b c).cw = s.cw := rfl
@[simp] theorem State.setWindow_crc (a : List Sample) (b : List Bool) (c : List Word) : (s.setWindow a b c).crc = s.crc := rfl
@[simp] theorem State.setWindow_port (a : List Sample) (b : List Bool) (c : List Word) : (s.setWindow a b c).port = s.port := rfl
@[simp] theorem State.setWindow_resp (a : List Sample) (b : List Bool) (c : List Word) : (s.setWindow a b c).resp = s.resp := rfl
@[simp] theorem State.setWindow_events (a : List Sample) (b : List Bool) (c : List Word) : (s.setWindow a b c).events = s.events := rfl

/-! `setFlg` -/

@[simp] theorem State.setFlg_cfg (b : List Bool) : (s.setFlg b).cfg = s.cfg := rfl
@[simp] theorem State.setFlg_smp (b : List Bool) : (s.setFlg b).smp = s.smp := rfl
@[simp] theorem State.setFlg_flg (b : List Bool) : (s.setFlg b).flg = b := rfl
@[simp] theorem State.setFlg_idx (b : List Bool) : (s.setFlg b).idx = s.idx := rfl
@[simp] theorem State.setFlg_ms (b : List Bool) : (s.setFlg b).ms = s.ms := rfl
@[simp] theorem State.setFlg_cnt (b : List Bool) : (s.setFlg b).cnt = s.cnt := rfl
@[simp] theorem State.setFlg_awaitingSync (b : List Bool) : (s.setFlg b).awaitingSync = s.awaitingSync := rfl
@[simp] theorem State.setFlg_fr (b : List Bool) : (s.setFlg b).fr = s.fr := rfl
@[simp] theorem State.setFlg_cw (b : List Bool) : (s.setFlg b).cw = s.cw := rfl
@[simp] theorem State.setFlg_crc (b : List Bool) : (s.setFlg b).crc = s.crc := rfl
@[simp] theorem State.setFlg_port (b : List Bool) : (s.setFlg b).port = s.port := rfl
@[simp] theorem State.setFlg_resp (b : List Bool) : (s.setFlg b).resp = s.resp := rfl
@[simp] theorem State.setFlg_events (b : List Bool) : (s.setFlg b).events = s.events := rfl

/-! `setPort` -/

@[simp] theorem State.setPort_cfg (p : List HostInput) : (s.setPort p).cfg = s.cfg := rfl
@[simp] theorem State.setPort_smp (p : List HostInput) : (s.setPort p).smp = s.smp := rfl
@[simp] theorem State.setPort_flg (p : List HostInput) : (s.setPort p).flg = s.flg := rfl
@[simp] theorem State.setPort_idx (p : List HostInput) : (s.setPort p).idx = s.idx := rfl
@[simp] theorem State.setPort_ms (p : List HostInput) : (s.setPort p).ms = s.ms := rfl
@[simp] theorem State.setPort_cnt (p : List HostInput) : (s.setPort p).cnt = s.cnt := rfl
@[simp] theorem State.setPort_awaitingSync (p : List HostInput) : (s.setPort p).awaitingSync = s.awaitingSync := rfl
@[simp] theorem State.setPort_fr (p : List HostInput) : (s.setPort p).fr = s.fr := rfl
@[simp] theorem State.setPort_cw (p : List HostInput) : (s.setPort p).cw = s.cw := rfl
@[simp] theorem State.setPort_crc (p : List HostInput) : (s.setPort p).crc = s.crc := rfl
@[simp] theorem State.setPort_port (p : List HostInput) : (s.setPort p).port = p := rfl
@[simp] theorem State.setPort_resp (p : List HostInput) : (s.setPort p).resp = s.resp := rfl
@[simp] theorem State.setPort_events (p : List HostInput) : (s.setPort p).events = s.events := rfl

/-! `replyWith` -/

@[simp] theorem State.replyWith_cfg (st : Status) (d : Data) (e : List Event) : (s.replyWith st d e).cfg = s.cfg := rfl
@[simp] theorem State.replyWith_smp (st : Status) (d : Data) (e : List Event) : (s.replyWith st d e).smp = s.smp := rfl
@[simp] theorem State.replyWith_flg (st : Status) (d : Data) (e : List Event) : (s.replyWith st d e).flg = s.flg := rfl
@[simp] theorem State.replyWith_idx (st : Status) (d : Data) (e : List Event) : (s.replyWith st d e).idx = s.idx := rfl
@[simp] theorem State.replyWith_ms (st : Status) (d : Data) (e : List Event) : (s.replyWith st d e).ms = s.ms := rfl
@[simp] theorem State.replyWith_cnt (st : Status) (d : Data) (e : List Event) : (s.replyWith st d e).cnt = s.cnt := rfl
@[simp] theorem State.replyWith_awaitingSync (st : Status) (d : Data) (e : List Event) : (s.replyWith st d e).awaitingSync = s.awaitingSync := rfl
@[simp] theorem State.replyWith_fr (st : Status) (d : Data) (e : List Event) : (s.replyWith st d e).fr = s.fr := rfl
@[simp] theorem State.replyWith_cw (st : Status) (d : Data) (e : List Event) : (s.replyWith st d e).cw = s.cw := rfl
@[simp] theorem State.replyWith_crc (st : Status) (d : Data) (e : List Event) : (s.replyWith st d e).crc = s.crc := rfl
@[simp] theorem State.replyWith_port (st : Status) (d : Data) (e : List Event) : (s.replyWith st d e).port = s.port := rfl
@[simp] theorem State.replyWith_resp (st : Status) (d : Data) (e : List Event) : (s.replyWith st d e).resp = some { status := st, data := d } := rfl
@[simp] theorem State.replyWith_events (st : Status) (d : Data) (e : List Event) : (s.replyWith st d e).events = e := rfl

/-! `reply` -/

@[simp] theorem State.reply_cfg (st : Status) (d : Data) : (s.reply st d).cfg = s.cfg := rfl
@[simp] theorem State.reply_smp (st : Status) (d : Data) : (s.reply st d).smp = s.smp := rfl
@[simp] theorem State.reply_flg (st : Status) (d : Data) : (s.reply st d).flg = s.flg := rfl
@[simp] theorem State.reply_idx (st : Status) (d : Data) : (s.reply st d).idx = s.idx := rfl
@[simp] theorem State.reply_ms (st : Status) (d : Data) : (s.reply st d).ms = s.ms := rfl
@[simp] theorem State.reply_cnt (st : Status) (d : Data) : (s.reply st d).cnt = s.cnt := rfl
@[simp] theorem State.reply_awaitingSync (st : Status) (d : Data) : (s.reply st d).awaitingSync = s.awaitingSync := rfl
@[simp] theorem State.reply_fr (st : Status) (d : Data) : (s.reply st d).fr = s.fr := rfl
@[simp] theorem State.reply_cw (st : Status) (d : Data) : (s.reply st d).cw = s.cw := rfl
@[simp] theorem State.reply_crc (st : Status) (d : Data) : (s.reply st d).crc = s.crc := rfl
@[simp] theorem State.reply_port (st : Status) (d : Data) : (s.reply st d).port = s.port := rfl
@[simp] theorem State.reply_resp (st : Status) (d : Data) : (s.reply st d).resp = some { status := st, data := d } := rfl
@[simp] theorem State.reply_events (st : Status) (d : Data) : (s.reply st d).events = [] := rfl

/-! `illegal` -/

@[simp] theorem State.illegal_cfg : s.illegal.cfg = s.cfg := rfl
@[simp] theorem State.illegal_smp : s.illegal.smp = s.smp := rfl
@[simp] theorem State.illegal_flg : s.illegal.flg = s.flg := rfl
@[simp] theorem State.illegal_idx : s.illegal.idx = s.idx := rfl
@[simp] theorem State.illegal_ms : s.illegal.ms = s.ms := rfl
@[simp] theorem State.illegal_cnt : s.illegal.cnt = s.cnt := rfl
@[simp] theorem State.illegal_awaitingSync : s.illegal.awaitingSync = s.awaitingSync := rfl
@[simp] theorem State.illegal_fr : s.illegal.fr = s.fr := rfl
@[simp] theorem State.illegal_cw : s.illegal.cw = s.cw := rfl
@[simp] theorem State.illegal_crc : s.illegal.crc = s.crc := rfl
@[simp] theorem State.illegal_port : s.illegal.port = s.port := rfl
@[simp] theorem State.illegal_resp : s.illegal.resp = some { status := .illegal, data := 0 } := rfl
@[simp] theorem State.illegal_events : s.illegal.events = [] := rfl

/-! `recover` -/

@[simp] theorem State.recover_cfg : s.recover.cfg = s.cfg := rfl
@[simp] theorem State.recover_smp : s.recover.smp = s.smp := rfl
@[simp] theorem State.recover_flg : s.recover.flg = s.flg := rfl
@[simp] theorem State.recover_idx : s.recover.idx = s.idx := rfl
@[simp] theorem State.recover_ms : s.recover.ms = s.ms + 1 := rfl
@[simp] theorem State.recover_cnt : s.recover.cnt = s.cnt := rfl
@[simp] theorem State.recover_awaitingSync : s.recover.awaitingSync = true := rfl
@[simp] theorem State.recover_fr : s.recover.fr = s.fr := rfl
@[simp] theorem State.recover_cw : s.recover.cw = s.cw := rfl
@[simp] theorem State.recover_crc : s.recover.crc = s.crc := rfl
@[simp] theorem State.recover_port : s.recover.port = s.port := rfl
@[simp] theorem State.recover_resp : s.recover.resp = s.resp := rfl
@[simp] theorem State.recover_events : s.recover.events = s.events := rfl

/-! `passFrame` -/

@[simp] theorem State.passFrame_cfg : s.passFrame.cfg = s.cfg := rfl
@[simp] theorem State.passFrame_smp : s.passFrame.smp = s.smp := rfl
@[simp] theorem State.passFrame_flg : s.passFrame.flg = s.flg := rfl
@[simp] theorem State.passFrame_idx : s.passFrame.idx = s.idx := rfl
@[simp] theorem State.passFrame_ms : s.passFrame.ms = min (s.ms + 96 * s.cfg.spb) s.cfg.len := rfl
@[simp] theorem State.passFrame_cnt : s.passFrame.cnt = s.cnt := rfl
@[simp] theorem State.passFrame_awaitingSync : s.passFrame.awaitingSync = true := rfl
@[simp] theorem State.passFrame_fr : s.passFrame.fr = s.fr := rfl
@[simp] theorem State.passFrame_cw : s.passFrame.cw = s.cw := rfl
@[simp] theorem State.passFrame_crc : s.passFrame.crc = s.crc := rfl
@[simp] theorem State.passFrame_port : s.passFrame.port = s.port := rfl
@[simp] theorem State.passFrame_resp : s.passFrame.resp = s.resp := rfl
@[simp] theorem State.passFrame_events : s.passFrame.events = s.events := rfl

/-! `resetCore` -/

@[simp] theorem State.resetCore_cfg : s.resetCore.cfg = s.cfg := rfl
@[simp] theorem State.resetCore_smp : s.resetCore.smp = List.replicate s.cfg.len 0 := rfl
@[simp] theorem State.resetCore_flg : s.resetCore.flg = List.replicate s.cfg.len false := rfl
@[simp] theorem State.resetCore_idx : s.resetCore.idx = List.replicate s.cfg.len 0 := rfl
@[simp] theorem State.resetCore_ms : s.resetCore.ms = s.cfg.len := rfl
@[simp] theorem State.resetCore_cnt : s.resetCore.cnt = 0 := rfl
@[simp] theorem State.resetCore_awaitingSync : s.resetCore.awaitingSync = true := rfl
@[simp] theorem State.resetCore_fr : s.resetCore.fr = Vector.replicate 12 0 := rfl
@[simp] theorem State.resetCore_cw : s.resetCore.cw = Vector.replicate 15 0 := rfl
@[simp] theorem State.resetCore_crc : s.resetCore.crc = 0 := rfl
@[simp] theorem State.resetCore_port : s.resetCore.port = s.port := rfl
@[simp] theorem State.resetCore_resp : s.resetCore.resp = s.resp := rfl
@[simp] theorem State.resetCore_events : s.resetCore.events = s.events := rfl

/-! `bufpush` -/

@[simp] theorem State.bufpush_cfg (v : Sample) : (s.bufpush v).cfg = s.cfg := rfl
@[simp] theorem State.bufpush_smp (v : Sample) : (s.bufpush v).smp = shiftIn s.ms v s.smp := rfl
@[simp] theorem State.bufpush_flg (v : Sample) : (s.bufpush v).flg = shiftIn s.ms false s.flg := rfl
@[simp] theorem State.bufpush_idx (v : Sample) : (s.bufpush v).idx = shiftIn s.ms s.cnt s.idx := rfl
@[simp] theorem State.bufpush_ms (v : Sample) : (s.bufpush v).ms = s.ms - 1 := rfl
@[simp] theorem State.bufpush_cnt (v : Sample) : (s.bufpush v).cnt = s.cnt + 1 := rfl
@[simp] theorem State.bufpush_awaitingSync (v : Sample) : (s.bufpush v).awaitingSync = s.awaitingSync := rfl
@[simp] theorem State.bufpush_fr (v : Sample) : (s.bufpush v).fr = s.fr := rfl
@[simp] theorem State.bufpush_cw (v : Sample) : (s.bufpush v).cw = s.cw := rfl
@[simp] theorem State.bufpush_crc (v : Sample) : (s.bufpush v).crc = s.crc := rfl
@[simp] theorem State.bufpush_port (v : Sample) : (s.bufpush v).port = s.port := rfl
@[simp] theorem State.bufpush_resp (v : Sample) : (s.bufpush v).resp = s.resp := rfl
@[simp] theorem State.bufpush_events (v : Sample) : (s.bufpush v).events = s.events := rfl

/-! `rsenc` -/

@[simp] theorem State.rsenc_cfg : s.rsenc.cfg = s.cfg := rfl
@[simp] theorem State.rsenc_smp : s.rsenc.smp = s.smp := rfl
@[simp] theorem State.rsenc_flg : s.rsenc.flg = s.flg := rfl
@[simp] theorem State.rsenc_idx : s.rsenc.idx = s.idx := rfl
@[simp] theorem State.rsenc_ms : s.rsenc.ms = s.ms := rfl
@[simp] theorem State.rsenc_cnt : s.rsenc.cnt = s.cnt := rfl
@[simp] theorem State.rsenc_awaitingSync : s.rsenc.awaitingSync = s.awaitingSync := rfl
@[simp] theorem State.rsenc_fr : s.rsenc.fr = s.fr := rfl
@[simp] theorem State.rsenc_cw : s.rsenc.cw = rsEncode s.cfg.order s.cw := rfl
@[simp] theorem State.rsenc_crc : s.rsenc.crc = s.crc := rfl
@[simp] theorem State.rsenc_port : s.rsenc.port = s.port := rfl
@[simp] theorem State.rsenc_resp : s.rsenc.resp = s.resp := rfl
@[simp] theorem State.rsenc_events : s.rsenc.events = s.events := rfl

/-! `unpack` -/

@[simp] theorem State.unpack_cfg : s.unpack.cfg = s.cfg := rfl
@[simp] theorem State.unpack_smp : s.unpack.smp = s.smp := rfl
@[simp] theorem State.unpack_flg : s.unpack.flg = s.flg := rfl
@[simp] theorem State.unpack_idx : s.unpack.idx = s.idx := rfl
@[simp] theorem State.unpack_ms : s.unpack.ms = s.ms := rfl
@[simp] theorem State.unpack_cnt : s.unpack.cnt = s.cnt := rfl
@[simp] theorem State.unpack_awaitingSync : s.unpack.awaitingSync = s.awaitingSync := rfl
@[simp] theorem State.unpack_fr : s.unpack.fr = s.fr := rfl
@[simp] theorem State.unpack_cw : s.unpack.cw = unpackFrame s.fr := rfl
@[simp] theorem State.unpack_crc : s.unpack.crc = s.crc := rfl
@[simp] theorem State.unpack_port : s.unpack.port = s.port := rfl
@[simp] theorem State.unpack_resp : s.unpack.resp = s.resp := rfl
@[simp] theorem State.unpack_events : s.unpack.events = s.events := rfl

/-! `repack` -/

@[simp] theorem State.repack_cfg : s.repack.cfg = s.cfg := rfl
@[simp] theorem State.repack_smp : s.repack.smp = s.smp := rfl
@[simp] theorem State.repack_flg : s.repack.flg = s.flg := rfl
@[simp] theorem State.repack_idx : s.repack.idx = s.idx := rfl
@[simp] theorem State.repack_ms : s.repack.ms = s.ms := rfl
@[simp] theorem State.repack_cnt : s.repack.cnt = s.cnt := rfl
@[simp] theorem State.repack_awaitingSync : s.repack.awaitingSync = s.awaitingSync := rfl
@[simp] theorem State.repack_fr : s.repack.fr = repackFrame s.fr s.cw := rfl
@[simp] theorem State.repack_cw : s.repack.cw = s.cw := rfl
@[simp] theorem State.repack_crc : s.repack.crc = s.crc := rfl
@[simp] theorem State.repack_port : s.repack.port = s.port := rfl
@[simp] theorem State.repack_resp : s.repack.resp = s.resp := rfl
@[simp] theorem State.repack_events : s.repack.events = s.events := rfl

/-! `descr` -/

@[simp] theorem State.descr_cfg : s.descr.cfg = s.cfg := rfl
@[simp] theorem State.descr_smp : s.descr.smp = s.smp := rfl
@[simp] theorem State.descr_flg : s.descr.flg = s.flg := rfl
@[simp] theorem State.descr_idx : s.descr.idx = s.idx := rfl
@[simp] theorem State.descr_ms : s.descr.ms = s.ms := rfl
@[simp] theorem State.descr_cnt : s.descr.cnt = s.cnt := rfl
@[simp] theorem State.descr_awaitingSync : s.descr.awaitingSync = s.awaitingSync := rfl
@[simp] theorem State.descr_fr : s.descr.fr = descramble s.fr := rfl
@[simp] theorem State.descr_cw : s.descr.cw = s.cw := rfl
@[simp] theorem State.descr_crc : s.descr.crc = s.crc := rfl
@[simp] theorem State.descr_port : s.descr.port = s.port := rfl
@[simp] theorem State.descr_resp : s.descr.resp = s.resp := rfl
@[simp] theorem State.descr_events : s.descr.events = s.events := rfl

end Sys2Proof.Machine
end

