-- ==== Sys2Proof/Laws/Ops.lean ====
section
/-! SUPPORT. What the shared operations can do: the end of a command, index operands, the shift of a window array, the
window accesses; and that every window operation keeps the window's form. -/

namespace Sys2Proof.Machine

/-! ## The end of a command -/

theorem configLegal_iff (c : Config) : configLegal c = true ↔ LegalConfig c := by
  simp only [configLegal, Bool.and_eq_true, decide_eq_true_eq]
  constructor
  · rintro ⟨⟨⟨⟨⟨h1, h2⟩, h3⟩, h4⟩, h5⟩, h6⟩; exact ⟨h1, h2, h3, h4, h5, h6⟩
  · rintro ⟨h1, h2, h3, h4, h5, h6⟩; exact ⟨⟨⟨⟨⟨h1, h2⟩, h3⟩, h4⟩, h5⟩, h6⟩

theorem Inv.legal {s : State} (h : Inv s) : configLegal s.cfg = true := (configLegal_iff _).2 h.config

/-- A command under a legal configuration that touches no missing position ends in its state. -/
theorem commit_some {s t : State} (h : configLegal s.cfg = true) : commit s (some t) = .next t := by
  simp [commit, h]

/-- The only way a command ends in a next state. -/
theorem commit_next {s t : State} {r : Option State} (h : commit s r = .next t) :
    configLegal s.cfg = true ∧ r = some t := by
  unfold commit at h
  split at h
  · rename_i hc
    cases r with
    | none => simp at h
    | some u => simp only [Host.Outcome.next.injEq] at h; exact ⟨hc, by rw [h]⟩
  · simp at h

theorem commit_next_iff {s t : State} {r : Option State} :
    commit s r = .next t ↔ configLegal s.cfg = true ∧ r = some t :=
  ⟨commit_next, fun ⟨h, e⟩ => e ▸ commit_some h⟩

/-- An illegal configuration is refused whatever the command did. -/
theorem commit_illegal {s : State} (r : Option State) (h : configLegal s.cfg = false) :
    commit s r = .refused .illegalConfiguration := by
  simp [commit, h]

/-! ## Index operands -/

theorem indexOf?_some {n : Nat} {k : BitVec 4} (h : k.toNat < n) : indexOf? n k = some ⟨k.toNat, h⟩ := by
  simp [indexOf?, h]

theorem indexOf?_none {n : Nat} {k : BitVec 4} (h : n ≤ k.toNat) : indexOf? n k = none := by
  simp [indexOf?, Nat.not_lt.2 h]

/-! ## The window -/

theorem shiftIn_length {α : Type} {m : Nat} {x : α} {l : List α} (hm : m ≤ l.length) (h0 : 0 < l.length) :
    (shiftIn m x l).length = l.length := by
  simp only [shiftIn, List.length_append, List.length_take, List.length_drop, List.length_cons, List.length_nil]
  omega

/-- What stands at each position after an append (spec/43_window_sync.md R161): the new element at the end, the old element
of the next position from MS - 1 on, the old element below. -/
theorem shiftIn_getElem? {α : Type} {m : Nat} {x : α} {l : List α} (hm : m ≤ l.length) (h0 : 0 < l.length) (p : Nat) :
    (shiftIn m x l)[p]? =
      if p + 1 = l.length then some x
      else if p + 1 < m then l[p]?
      else l[p + 1]? := by
  simp only [shiftIn]
  by_cases h1 : p < m - 1
  · have hp : p < (l.take (m - 1)).length := by simp only [List.length_take]; omega
    rw [List.append_assoc, List.getElem?_append_left hp, List.getElem?_take]
    have e1 : ¬ p + 1 = l.length := by omega
    have e2 : p + 1 < m := by omega
    simp [h1, e1, e2]
  · have e2 : ¬ p + 1 < m := by omega
    have hl : (l.take (m - 1)).length = m - 1 := by simp only [List.length_take]; omega
    rw [List.append_assoc, List.getElem?_append_right (by omega), hl]
    by_cases h2 : p - (m - 1) < (l.drop (max m 1)).length
    · rw [List.getElem?_append_left h2, List.getElem?_drop]
      rw [List.length_drop] at h2
      have e1 : ¬ p + 1 = l.length := by omega
      have e3 : max m 1 + (p - (m - 1)) = p + 1 := by omega
      simp [e1, e2, e3]
    · rw [List.getElem?_append_right (by omega)]
      rw [List.length_drop] at *
      by_cases e1 : p + 1 = l.length
      · have e3 : p - (m - 1) - (l.length - max m 1) = 0 := by omega
        simp [e1, e3]
      · have e3 : p - (m - 1) - (l.length - max m 1) = p + 1 - l.length := by omega
        have e4 : ([x] : List α)[p + 1 - l.length]? = none := by
          rw [List.getElem?_eq_none]; simp only [List.length_cons, List.length_nil]; omega
        have e5 : l[p + 1]? = none := by rw [List.getElem?_eq_none]; omega
        simp [e1, e2, e3, e4, e5]

/-- A position of the window is readable in all three arrays. -/
theorem Memory.wf.read {s : State} (h : Memory.wf s) {p : Nat} (hp : p < s.cfg.len) :
    (∃ v, s.readSmp p = some v) ∧ (∃ b, s.readFlg p = some b) ∧ ∃ n, s.readIdx p = some n := by
  obtain ⟨h1, h2, h3⟩ := h
  refine ⟨⟨s.smp[p]'(by omega), ?_⟩, ⟨s.flg[p]'(by omega), ?_⟩, ⟨s.idx[p]'(by omega), ?_⟩⟩ <;>
    exact List.getElem?_eq_getElem _

/-- The write of a flag inside the window. -/
theorem writeFlg_some {s : State} {p : Nat} (b : Bool) (h : p < s.flg.length) :
    s.writeFlg p b = some (s.setFlg (s.flg.set p b)) := by
  simp [State.writeFlg, h]

theorem writeFlg_eq_some {s t : State} {p : Nat} {b : Bool} (h : s.writeFlg p b = some t) :
    p < s.flg.length ∧ t = s.setFlg (s.flg.set p b) := by
  unfold State.writeFlg at h
  split at h
  · rename_i hp; exact ⟨hp, (Option.some.inj h).symm⟩
  · simp at h

theorem writeFlg_wf {s t : State} {p : Nat} {b : Bool} (hw : Memory.wf s) (h : s.writeFlg p b = some t) :
    Memory.wf t := by
  obtain ⟨-, rfl⟩ := writeFlg_eq_some h
  simpa [Memory.wf] using hw

theorem bufpush_wf {s : State} (h : Inv s) (v : Sample) : Memory.wf (s.bufpush v) := by
  obtain ⟨⟨_, _, _, h16, _, _⟩, ⟨h1, h2, h3⟩, hm⟩ := h
  refine ⟨?_, ?_, ?_⟩
  · rw [State.bufpush_smp, State.bufpush_cfg, shiftIn_length (by omega) (by omega), h1]
  · rw [State.bufpush_flg, State.bufpush_cfg, shiftIn_length (by omega) (by omega), h2]
  · rw [State.bufpush_idx, State.bufpush_cfg, shiftIn_length (by omega) (by omega), h3]

theorem resetWith_wf (c : Config) : Memory.wf (State.resetWith c) := by
  simp [Memory.wf, State.resetWith]

theorem reset_wf : Memory.wf State.reset := resetWith_wf Config.default

theorem resetCore_wf (s : State) : Memory.wf s.resetCore := by
  simp [Memory.wf]

theorem bufpush_inv {s : State} (h : Inv s) (v : Sample) : Inv (s.bufpush v) where
  config := h.config
  window := bufpush_wf h v
  ms_le := by have := h.ms_le; rw [State.bufpush_ms, State.bufpush_cfg]; omega

end Sys2Proof.Machine
end

