-- ==== Sys2Proof/Laws/Window.lean ====
section
/-! SUPPORT. The correlator: it never leaves the window of a well-formed state, and what it answers. -/

namespace Sys2Proof.Machine

theorem outOfBand_eq (c : Config) (v : Sample) : outOfBand c v = decide (OutOfBand c v) := by
  simp only [outOfBand, OutOfBand, decide_eq_decide, Int.abs_eq_natAbs]
  omega

theorem outOfBand_iff {c : Config} {v : Sample} : outOfBand c v = true ↔ OutOfBand c v := by
  rw [outOfBand_eq, decide_eq_true_eq]

theorem syncBit_eq {k : Nat} (h : k < 16) : syncBit k = decide (k % 2 = 0) := by
  unfold syncBit
  have : ∀ j : Fin 16, (0x5555#16).getLsbD j.val = decide (j.val % 2 = 0) := by decide
  exact this ⟨k, h⟩

/-- A tap matches iff its sample is out of band and positive exactly for an even k (spec/43_window_sync.md R164). -/
theorem tapMatches_iff {c : Config} {k : Nat} (h : k < 16) {v : Sample} :
    tapMatches c k v = true ↔ OutOfBand c v ∧ (0 < v.toInt ↔ k % 2 = 0) := by
  rw [tapMatches, Bool.and_eq_true, outOfBand_iff, syncBit_eq h, positive, beq_iff_eq, decide_eq_decide]

theorem tapPosition_lt {s : State} (h : Inv s) (k : Nat) : tapPosition s.cfg k < s.cfg.len := by
  have := h.config.len_ge
  unfold tapPosition
  omega

theorem tapsMatch_spec {s : State} (h : Inv s) (ks : List Nat) :
    ∃ m, tapsMatch s ks = some m ∧
      (m = true ↔ ∀ k ∈ ks, ∃ v, s.smp[tapPosition s.cfg k]? = some v ∧ tapMatches s.cfg k v = true) := by
  induction ks with
  | nil => exact ⟨true, rfl, by simp⟩
  | cons k ks ih =>
    obtain ⟨m, hm, hiff⟩ := ih
    obtain ⟨⟨v, hv⟩, -, -⟩ := h.window.read (tapPosition_lt h k)
    refine ⟨tapMatches s.cfg k v && m, by simp [tapsMatch, hm, hv], ?_⟩
    rw [State.readSmp] at hv
    simp [hiff, hv]

/-- What CORR answers and writes (spec/43_window_sync.md R166). -/
theorem corr_spec {s : State} (h : Inv s) :
    ∃ m, s.corr = some (s.setFlg (s.flg.set (tapPosition s.cfg 15) m), m) ∧
      (m = true ↔ ∀ k, k < 16 → ∃ v, s.smp[tapPosition s.cfg k]? = some v ∧ tapMatches s.cfg k v = true) := by
  obtain ⟨m, hm, hiff⟩ := tapsMatch_spec h (List.range 16)
  obtain ⟨⟨v, hv⟩, -, -⟩ := h.window.read (tapPosition_lt h 0)
  have hw : tapPosition s.cfg 15 < s.flg.length := by rw [h.window.2.1]; exact tapPosition_lt h 15
  refine ⟨positive v && m, by simp [State.corr, correlation, hm, hv, writeFlg_some _ hw], ?_⟩
  rw [State.readSmp] at hv
  simp only [List.mem_range] at hiff
  constructor
  · intro hp
    rw [Bool.and_eq_true] at hp
    exact hiff.1 hp.2
  · intro hp
    have h0 := hp 0 (by omega)
    rw [hv] at h0
    obtain ⟨w, hw', ht⟩ := h0
    obtain rfl := Option.some.inj hw'
    rw [Bool.and_eq_true, hiff]
    refine ⟨?_, hp⟩
    have := (tapMatches_iff (by omega)).1 ht
    simpa [positive] using this.2

theorem corr_inv {s t : State} {m : Bool} (h : Inv s) (hc : s.corr = some (t, m)) : Inv t := by
  obtain ⟨m', he, -⟩ := corr_spec h
  rw [he] at hc
  simp only [Option.some.injEq, Prod.mk.injEq] at hc
  obtain ⟨rfl, -⟩ := hc
  exact ⟨h.config, by simpa [Memory.wf] using h.window, h.ms_le⟩

end Sys2Proof.Machine
end

