-- ==== Sys2Proof/Laws/Extract.lean ====
section
/-! SUPPORT. The byte reader, the flag scan, LOOKUP and EXTRACT: what they answer in a well-formed state. -/

namespace Sys2Proof.Machine

/-! ## The line code -/

theorem toggles_eq {s : State} {p : Nat} {v : Sample} (h : s.smp[p]? = some v) : toggles s p = outOfBand s.cfg v := by
  simp [toggles, h, outOfBand_eq, OutOfBand]

/-- Reading on from the next bit instant with the bit just read. -/
theorem lineBit_next (s : State) (start : Nat) (b : Bool) (n : Nat) :
    lineBit s (start + s.cfg.spb) (b ^^ toggles s start) n = lineBit s start b (n + 1) := by
  induction n with
  | zero => simp [lineBit]
  | succ n ih =>
    rw [lineBit, ih]
    conv_rhs => rw [lineBit]
    have e : start + s.cfg.spb + (n + 1) * s.cfg.spb = start + (n + 1 + 1) * s.cfg.spb := by
      rw [Nat.add_mul (n + 1) 1, Nat.one_mul]; omega
    rw [e]

/-- Reading on after k + 1 bits. -/
theorem lineBit_add (s : State) (start : Nat) (b : Bool) (k n : Nat) :
    lineBit s (start + (k + 1) * s.cfg.spb) (lineBit s start b k) n = lineBit s start b (k + 1 + n) := by
  induction n with
  | zero => simp [lineBit]
  | succ n ih =>
    rw [lineBit, ih, show k + 1 + (n + 1) = (k + 1 + n) + 1 from rfl, lineBit]
    have e : start + (k + 1) * s.cfg.spb + (n + 1) * s.cfg.spb = start + (k + 1 + n + 1) * s.cfg.spb := by
      rw [Nat.add_assoc, ← Nat.add_mul]; congr 2
    rw [e]

/-! ## Reading bits and bytes -/

theorem appendBit_getLsbD (byte : Byte) (b : Bool) {i : Nat} (h : i < 8) :
    ((byte <<< 1) ||| (BitVec.ofBool b).setWidth 8).getLsbD i = if i = 0 then b else byte.getLsbD (i - 1) := by
  by_cases h0 : i = 0
  · subst h0; simp
  · have : ¬ i < 1 := by omega
    have h1 : ¬ (i = 0 ∧ b = true) := fun c => h0 c.1
    simp only [BitVec.getLsbD_or, BitVec.getLsbD_shiftLeft, BitVec.getLsbD_setWidth, BitVec.getLsbD_ofBool]
    simp [h0, h, this]

/-- `n + 1` bits from `start`: the running bit is the last line bit, and the bits are appended least significant last. -/
theorem readBits_spec {s : State} (hw : Memory.wf s) {n start : Nat} {bit : Bool} {byte : Byte}
    (h : start + n * s.cfg.spb < s.cfg.len) :
    ∃ r, readBits s (n + 1) start bit byte = some (r, lineBit s start bit n) ∧
      ∀ i, i < 8 → r.getLsbD i = if i ≤ n then lineBit s start bit (n - i) else byte.getLsbD (i - (n + 1)) := by
  induction n generalizing start bit byte with
  | zero =>
    obtain ⟨⟨v, hv⟩, -, -⟩ := hw.read (p := start) (by omega)
    rw [State.readSmp] at hv
    refine ⟨_, by simp [readBits, State.readSmp, hv, lineBit, toggles_eq hv]; rfl, ?_⟩
    intro i hi
    rw [appendBit_getLsbD _ _ hi]
    by_cases h0 : i = 0
    · simp [h0, lineBit, toggles_eq hv]
    · have : ¬ i ≤ 0 := by omega
      simp [h0]
  | succ n ih =>
    have hs : start + s.cfg.spb + n * s.cfg.spb < s.cfg.len := by
      rw [Nat.add_mul] at h; omega
    obtain ⟨⟨v, hv⟩, -, -⟩ := hw.read (p := start) (by rw [Nat.add_mul] at h; omega)
    rw [State.readSmp] at hv
    obtain ⟨r, hr, hbits⟩ := ih (start := start + s.cfg.spb) (bit := bit ^^ toggles s start)
      (byte := (byte <<< 1) ||| (BitVec.ofBool (bit ^^ toggles s start)).setWidth 8) hs
    refine ⟨r, ?_, ?_⟩
    · rw [readBits]
      simp only [State.readSmp, hv, ← toggles_eq hv]
      rw [hr, lineBit_next]
    · intro i hi
      rw [hbits i hi]
      by_cases h1 : i ≤ n
      · rw [lineBit_next]
        have e : n - i + 1 = n + 1 - i := by omega
        simp [h1, e, show i ≤ n + 1 by omega]
      · by_cases h2 : i = n + 1
        · subst h2
          have e : n + 1 - (n + 1) = 0 := by omega
          rw [appendBit_getLsbD _ _ (by omega)]
          simp [lineBit]
        · have h3 : ¬ i ≤ n + 1 := by omega
          rw [appendBit_getLsbD _ _ (by omega)]
          have h4 : ¬ i - (n + 1) = 0 := by omega
          simp [h1, h3, h4]
          congr 1

/-- RDBYTE's reader when the last of the eight samples lies in the window. -/
theorem readByte_spec {s : State} (hw : Memory.wf s) {start : Nat} {bit : Bool}
    (h : start + 7 * s.cfg.spb < s.cfg.len) :
    ∃ r, readByte s start bit = some (some (r, lineBit s start bit 7)) ∧
      ∀ i, i < 8 → r.getLsbD i = lineBit s start bit (7 - i) := by
  obtain ⟨r, hr, hb⟩ := readBits_spec hw (n := 7) (start := start) (bit := bit) (byte := 0) h
  refine ⟨r, ?_, ?_⟩
  · have hn : ¬ s.cfg.len - 1 < start + 7 * s.cfg.spb := by omega
    rw [readByte, if_neg hn, hr]; rfl
  · intro i hi
    rw [hb i hi, if_pos (by omega)]

/-- RDBYTE's reader when it does not: FAIL. -/
theorem readByte_fail {s : State} {start : Nat} {bit : Bool} (h : s.cfg.len - 1 < start + 7 * s.cfg.spb) :
    readByte s start bit = some none := by
  simp [readByte, h]

/-! ## LOOKUP -/

theorem getElem?_take_drop {α : Type} (l : List α) (a b i : Nat) (h : a + i < b) :
    ((l.take b).drop a)[i]? = l[a + i]? := by
  rw [List.getElem?_drop, List.getElem?_take]
  simp [h]

/-- A flag found is the least true one at or above MS and below the limit. -/
theorem firstFlag_some {s : State} {lim p : Nat} (h : firstFlag s lim = some p) :
    s.ms ≤ p ∧ p < lim ∧ s.flg[p]? = some true ∧ ∀ q, s.ms ≤ q → q < p → s.flg[q]? ≠ some true := by
  simp only [firstFlag, Option.map_eq_some_iff] at h
  obtain ⟨i, hi, rfl⟩ := h
  rw [List.findIdx?_eq_some_iff_getElem] at hi
  obtain ⟨hlt, htrue, hmin⟩ := hi
  have hlim : s.ms + i < lim ∧ s.ms + i < s.flg.length := by
    rw [List.length_drop, List.length_take] at hlt; omega
  refine ⟨by omega, hlim.1, ?_, ?_⟩
  · rw [← getElem?_take_drop _ _ _ _ hlim.1, List.getElem?_eq_getElem hlt]
    exact congrArg some htrue
  · intro q hq1 hq2
    obtain ⟨j, rfl⟩ : ∃ j, q = s.ms + j := ⟨q - s.ms, by omega⟩
    have hj := hmin j (by omega)
    rw [← getElem?_take_drop s.flg s.ms lim j (by omega), List.getElem?_eq_getElem (by omega)]
    simpa using hj

/-- No flag found: none is true at or above MS and below the limit. -/
theorem firstFlag_none {s : State} {lim : Nat} (h : firstFlag s lim = none) :
    ∀ q, s.ms ≤ q → q < lim → s.flg[q]? ≠ some true := by
  simp only [firstFlag, Option.map_eq_none_iff, List.findIdx?_eq_none_iff] at h
  intro q h1 h2 hq
  have hlt := (List.getElem?_eq_some_iff.1 hq).1
  obtain ⟨j, rfl⟩ : ∃ j, q = s.ms + j := ⟨q - s.ms, by omega⟩
  rw [← getElem?_take_drop _ _ _ _ h2] at hq
  have := h true (List.mem_of_getElem? hq)
  simp at this

/-- LOOKUP's two-byte check never leaves the window. -/
theorem syncBytesAt_total {s : State} (hw : Memory.wf s) (h16 : 16 ≤ s.cfg.len) (p : Nat) :
    ∃ b, syncBytesAt s p = some b := by
  unfold syncBytesAt
  by_cases h : p + 7 * s.cfg.spb < s.cfg.len
  · obtain ⟨r, hr, -⟩ := readByte_spec hw (bit := true) h
    rw [hr]
    by_cases h2 : p + 8 * s.cfg.spb + 7 * s.cfg.spb < s.cfg.len
    · obtain ⟨r2, hr2, -⟩ := readByte_spec hw (bit := lineBit s p true 7) h2
      exact ⟨r == 0x55 && r2 == 0x55, by simp only [hr2]⟩
    · exact ⟨false, by simp only [readByte_fail (s := s) (start := p + 8 * s.cfg.spb) (bit := lineBit s p true 7) (by omega)]⟩
  · exact ⟨false, by simp only [readByte_fail (s := s) (start := p) (bit := true) (by omega)]⟩

/-- Everything LOOKUP can answer (spec/44_extract.md R181). -/
theorem lookup_cases {s t : State} {r : Option Nat} (h : s.lookup = some (t, r)) :
    (firstFlag s (s.cfg.len - 15 * s.cfg.spb) = none ∧ t = s.setMs (s.cfg.len - 15 * s.cfg.spb) ∧ r = none) ∨
    ∃ p, firstFlag s (s.cfg.len - 15 * s.cfg.spb) = some p ∧
      ((syncBytesAt s p = some true ∧ t = s.setMs p ∧ r = some p) ∨
       (syncBytesAt s p = some false ∧ t = s.setMs (p + s.cfg.spb) ∧ r = none)) := by
  unfold State.lookup at h
  cases hf : firstFlag s (s.cfg.len - 15 * s.cfg.spb) with
  | none => simp [hf] at h; exact .inl ⟨rfl, h.1.symm, h.2.symm⟩
  | some p =>
    refine .inr ⟨p, rfl, ?_⟩
    simp only [hf] at h
    cases hb : syncBytesAt s p with
    | none => simp [hb] at h
    | some b =>
      cases b
      · simp [hb] at h; exact .inr ⟨rfl, h.1.symm, h.2.symm⟩
      · simp [hb] at h; exact .inl ⟨rfl, h.1.symm, h.2.symm⟩

/-- LOOKUP always answers in a well-formed state. -/
theorem lookup_total {s : State} (h : Inv s) : ∃ t r, s.lookup = some (t, r) := by
  unfold State.lookup
  cases hf : firstFlag s (s.cfg.len - 15 * s.cfg.spb) with
  | none => exact ⟨_, _, by simp only [hf]; rfl⟩
  | some p =>
    obtain ⟨b, hb⟩ := syncBytesAt_total h.window h.config.len_ge p
    cases b <;> exact ⟨_, _, by simp only [hf, hb]; rfl⟩

theorem lookup_inv {s t : State} {r : Option Nat} (h : Inv s) (hl : s.lookup = some (t, r)) : Inv t := by
  have hc := h.config
  have h1 := hc.spb_pos
  have h2 := hc.taps_fit
  have h3 := hc.len_ge
  rcases lookup_cases hl with ⟨-, rfl, -⟩ | ⟨p, hp, ⟨-, rfl, -⟩ | ⟨-, rfl, -⟩⟩
  · exact ⟨hc, h.window, by simp⟩
  · have := firstFlag_some hp
    exact ⟨hc, h.window, by simp; omega⟩
  · have := firstFlag_some hp
    exact ⟨hc, h.window, by simp; omega⟩

/-! ## EXTRACT -/

theorem readFrame_total {s : State} (hw : Memory.wf s) :
    ∀ (is : List (Fin 12)) (start : Nat) (bit : Bool) (f : Frame),
      start + (8 * is.length - 1) * s.cfg.spb < s.cfg.len → ∃ r, readFrame s is start bit f = some r
  | [], _, _, _, _ => ⟨_, rfl⟩
  | i :: is, start, bit, f, h => by
    have hb : start + 7 * s.cfg.spb < s.cfg.len := by
      have : 7 * s.cfg.spb ≤ (8 * (i :: is).length - 1) * s.cfg.spb :=
        Nat.mul_le_mul_right _ (by simp only [List.length_cons]; omega)
      omega
    obtain ⟨r, hr, -⟩ := readBits_spec hw (n := 7) (bit := bit) (byte := 0) hb
    rw [readFrame, hr]
    cases is with
    | nil => exact ⟨_, rfl⟩
    | cons j js =>
      apply readFrame_total hw
      have : 8 * s.cfg.spb + (8 * (j :: js).length - 1) * s.cfg.spb = (8 * (i :: j :: js).length - 1) * s.cfg.spb := by
        rw [← Nat.add_mul]; congr 1; simp only [List.length_cons]; omega
      omega

/-- EXTRACT of a frame wholly inside the window fills FR and changes nothing else. -/
theorem extract_ok {s : State} (h : Inv s) {start : Nat} (hs : start + 95 * s.cfg.spb ≤ s.cfg.len - 1) :
    ∃ f bit, readFrame s (List.finRange 12) start true s.fr = some (f, bit) ∧
      s.extract start = some (some (s.setFr f, bit)) := by
  have hl := h.config.len_ge
  obtain ⟨⟨f, bit⟩, hr⟩ := readFrame_total h.window (List.finRange 12) start true s.fr
    (by rw [List.length_finRange]; omega)
  refine ⟨f, bit, hr, ?_⟩
  have hn : ¬ s.cfg.len - 1 < start + 95 * s.cfg.spb := by omega
  simp [State.extract, hn, hr]

theorem extract_fail {s : State} {start : Nat} (h : s.cfg.len - 1 < start + 95 * s.cfg.spb) :
    s.extract start = some none := by
  simp [State.extract, h]

end Sys2Proof.Machine
end

