-- ==== Sys2Proof/Laws/Frame.lean ====
section
/-! SUPPORT. The frame and codec operations: the static fields, the CRC in the words of Safety.lean, every case of CRCFIX and
RSDEC. -/

namespace Sys2Proof.Machine

/-- The machine's eight shifts are those of spec/42_crc8.md R152 as Safety.lean states them. -/
theorem crcUpdate_eq (crc data : Byte) : crcUpdate crc data = crcFold crc data := rfl

theorem frameCrc_eq (f : Frame) : frameCrc f = messageCrc f := rfl

theorem flipSk1_eq (f : Frame) : flipSk1 f = withSk1Flipped f := rfl

theorem staticFieldsOk_iff (f : Frame) : staticFieldsOk f = true ↔ StaticFields f := by
  simp [staticFieldsOk, StaticFields, and_assoc, Nat.shiftRight_eq_div_pow, ← BitVec.toNat_inj]

/-- Everything CRCFIX can do (spec/45_frame_fec.md R207). -/
theorem crcfix_cases (s : State) :
    (frameCrc s.fr = s.fr[11] ∧ s.crcfix = (s.setCrc (frameCrc s.fr), some false)) ∨
    (frameCrc s.fr ≠ s.fr[11] ∧ frameCrc (flipSk1 s.fr) = s.fr[11] ∧
      s.crcfix = ((s.setCrc (frameCrc (flipSk1 s.fr))).setFr (flipSk1 s.fr), some true)) ∨
    (frameCrc s.fr ≠ s.fr[11] ∧ frameCrc (flipSk1 s.fr) ≠ s.fr[11] ∧
      s.crcfix = (s.setCrc (frameCrc (flipSk1 s.fr)), none)) := by
  unfold State.crcfix
  by_cases h1 : frameCrc s.fr = s.fr[11]
  · exact .inl ⟨h1, by simp [h1]⟩
  · by_cases h2 : frameCrc (flipSk1 s.fr) = s.fr[11]
    · exact .inr (.inl ⟨h1, h2, by simp only [h1, h2, if_false, if_true]⟩)
    · exact .inr (.inr ⟨h1, h2, by simp only [h1, h2, if_false]⟩)

/-- CRCFIX writes FR and CRC alone. -/
theorem crcfix_frame (s : State) :
    s.crcfix.1 = { s with fr := s.crcfix.1.fr, crc := s.crcfix.1.crc } := by
  rcases crcfix_cases s with ⟨-, h⟩ | ⟨-, -, h⟩ | ⟨-, -, h⟩ <;> rw [h] <;> rfl

/-- RSDEC writes CW alone, and nothing when it fails. -/
theorem rsdec_some {s t : State} (h : s.rsdec = some t) :
    ∃ cw, rsDecode s.cfg.order s.cw = some cw ∧ t = s.setCw cw := by
  simp only [State.rsdec, Option.map_eq_some_iff] at h
  obtain ⟨cw, h1, h2⟩ := h
  exact ⟨cw, h1, h2.symm⟩

theorem rsdec_none {s : State} (h : s.rsdec = none) : rsDecode s.cfg.order s.cw = none := by
  simpa only [State.rsdec, Option.map_eq_none_iff] using h

/-- Everything the decoder can answer (spec/41_rs_codec.md R125). -/
theorem rsDecode_cases (o : SymbolOrder) (cw : Codeword) :
    ((∀ x ∈ syndromes o cw, x = 0) ∧ rsDecode o cw = some cw) ∨
    ((¬ ∀ x ∈ syndromes o cw, x = 0) ∧
      (3 < (berlekampMassey (syndromes o cw)).length ∨
        (chienSearch (berlekampMassey (syndromes o cw)).locator).length ≠ (berlekampMassey (syndromes o cw)).length) ∧
      rsDecode o cw = none) ∨
    ((¬ ∀ x ∈ syndromes o cw, x = 0) ∧ (berlekampMassey (syndromes o cw)).length ≤ 3 ∧
      (chienSearch (berlekampMassey (syndromes o cw)).locator).length = (berlekampMassey (syndromes o cw)).length ∧
      rsDecode o cw = some (correctSymbols o (syndromes o cw) (berlekampMassey (syndromes o cw))
        (chienSearch (berlekampMassey (syndromes o cw)).locator) cw)) := by
  unfold rsDecode
  by_cases h0 : ∀ x ∈ syndromes o cw, x = 0
  · exact .inl ⟨h0, if_pos h0⟩
  · refine .inr ?_
    rw [if_neg h0]
    by_cases h1 : 3 < (berlekampMassey (syndromes o cw)).length
    · exact .inl ⟨h0, .inl h1, if_pos h1⟩
    · by_cases h2 : (chienSearch (berlekampMassey (syndromes o cw)).locator).length
          ≠ (berlekampMassey (syndromes o cw)).length
      · exact .inl ⟨h0, .inr h2, by simp only [if_neg h1, if_pos h2]⟩
      · exact .inr ⟨h0, by omega, not_not.1 h2, by simp only [if_neg h1, if_neg h2]⟩

end Sys2Proof.Machine
end

