-- ==== Sys2Proof/Laws/GF.lean ====
section
/-! SUPPORT. Powers of a field element (spec/40_gf16.md R106), case by case. -/

namespace Sys2Proof.Machine

@[simp] theorem gfPow_zero (a : Sym) : gfPow a 0 = 1 := by
  by_cases h : a = 0
  · rw [gfPow, if_pos h]; rfl
  · rw [gfPow, if_neg h, Int.mul_zero]; rfl

/-- 0^e = 0 for e > 0. -/
theorem zero_gfPow_succ (n : Nat) : gfPow 0 ((n + 1 : Nat) : Int) = 0 := by
  rfl

theorem gfPow_of_ne {a : Sym} (h : a ≠ 0) (e : Int) : gfPow a e = alphaPow (gfLog a * e) := by
  rw [gfPow, if_neg h]

end Sys2Proof.Machine
end

