-- ==== Sys2Proof/Laws/PerInstr.lean ====
section
/-! SUPPORT. The families of statements made per instruction (LAWS.json). `Fields`: the word of every command carries its
opcode and its two operand fields where the decoder reads them. -/

namespace Sys2Proof.Laws.Fields

/-- The three fields of the command's word are the ones the encoding tables give. -/
def Statement (i : Instr) : Prop :=
  opField (encode i) = i.opcode ∧ aField (encode i) = i.aBits ∧ dField (encode i) = i.dBits

theorem all (i : Instr) : Statement i :=
  ⟨opField_makeWord _ _ _, aField_makeWord _ _ _, dField_makeWord _ _ _⟩

theorem nop : Statement .nop := all _
theorem init : Statement .init := all _
theorem rsenc : Statement .rsenc := all _
theorem rsdec : Statement .rsdec := all _
theorem wrcw (k : BitVec 4) (imm : Sym) : Statement (.wrcw k imm) := all _
theorem rdcw (k : BitVec 4) : Statement (.rdcw k) := all _
theorem crcclr : Statement .crcclr := all _
theorem crcupd (imm : Byte) : Statement (.crcupd imm) := all _
theorem crcget : Statement .crcget := all _
theorem crcfr : Statement .crcfr := all _
theorem bufpush (smp : Sample) : Statement (.bufpush smp) := all _
theorem corr : Statement .corr := all _
theorem rdbuf (sel : WindowArray) (pos : BitVec 16) : Statement (.rdbuf sel pos) := all _
theorem rdst (sel : Scalar) : Statement (.rdst sel) := all _
theorem lookup : Statement .lookup := all _
theorem rdbyte (b : Bool) (pos : BitVec 16) : Statement (.rdbyte b pos) := all _
theorem extract (pos : BitVec 16) : Statement (.extract pos) := all _
theorem validate : Statement .validate := all _
theorem unpack : Statement .unpack := all _
theorem repack : Statement .repack := all _
theorem crcfix : Statement .crcfix := all _
theorem descr : Statement .descr := all _
theorem fields : Statement .fields := all _
theorem wrfr (i : BitVec 4) (imm : Byte) : Statement (.wrfr i imm) := all _
theorem rdfr (i : BitVec 4) : Statement (.rdfr i) := all _
theorem push (smp : Sample) : Statement (.push smp) := all _

end Sys2Proof.Laws.Fields
end

