-- ==== Sys2Proof/Laws/Sequencer.lean ====
section
/-! SUPPORT. Everything PUSH can do, stage by stage (spec/46_pipeline.md R231). -/

namespace Sys2Proof.Machine

/-! ## One frame -/

/-- The four exits of one frame. -/
theorem processFrame_cases (first : Word) (s : State) :
    (staticFieldsOk s.fr = false ∧ processFrame first s = (s.recover, [])) ∨
    (staticFieldsOk s.fr = true ∧ s.unpack.rsdec = none ∧
      processFrame first s = (s.unpack.recover, [.rawFrame s.fr first, .error .rsCorrectionFailed])) ∨
    (∃ t u, staticFieldsOk s.fr = true ∧ s.unpack.rsdec = some t ∧ t.repack.crcfix = (u, none) ∧
      processFrame first s =
        (u.recover, [.rawFrame s.fr first, .rsFrame t.repack.fr first, .error .crcCorrectionFailed])) ∨
    (∃ t u b, staticFieldsOk s.fr = true ∧ s.unpack.rsdec = some t ∧ t.repack.crcfix = (u, some b) ∧
      processFrame first s =
        (u.descr.passFrame, [.rawFrame s.fr first, .rsFrame t.repack.fr first, .crcFrame u.fr first,
          .timeData (timeDataOf u.descr.fr) first])) := by
  unfold processFrame correctFrame finishFrame
  cases hs : staticFieldsOk s.fr
  · exact .inl ⟨rfl, by simp⟩
  · refine .inr ?_
    cases hr : s.unpack.rsdec with
    | none => exact .inl ⟨rfl, rfl, by simp⟩
    | some t =>
      refine .inr ?_
      rcases hc : t.repack.crcfix with ⟨u, _ | b⟩
      · exact .inl ⟨t, u, rfl, rfl, hc, by simp [hc]⟩
      · exact .inr ⟨t, u, b, rfl, rfl, hc, by simp [hc]⟩

/-- One frame writes MS, AS, FR, CW and CRC alone. -/
theorem processFrame_frame (first : Word) (s : State) :
    (processFrame first s).1 =
      { s with
        ms := (processFrame first s).1.ms, awaitingSync := true, fr := (processFrame first s).1.fr
        cw := (processFrame first s).1.cw, crc := (processFrame first s).1.crc } := by
  rcases processFrame_cases first s with ⟨-, h⟩ | ⟨-, -, h⟩ | ⟨t, u, -, hr, hc, h⟩ | ⟨t, u, b, -, hr, hc, h⟩
  · rw [h]; rfl
  · rw [h]; rfl
  all_goals
    obtain ⟨cw, -, rfl⟩ := rsdec_some hr
    have hu := crcfix_frame (s.unpack.setCw cw).repack
    rw [hc] at hu
    rw [h]
    simp only at hu ⊢
    rw [hu]
    rfl

/-- Where one frame leaves MS: one further, or past the frame. -/
theorem processFrame_ms (first : Word) (s : State) :
    (processFrame first s).1.ms = s.ms + 1 ∨
      (processFrame first s).1.ms = min (s.ms + 96 * s.cfg.spb) s.cfg.len := by
  rcases processFrame_cases first s with ⟨-, h⟩ | ⟨-, -, h⟩ | ⟨t, u, -, hr, hc, h⟩ | ⟨t, u, b, -, hr, hc, h⟩
  · rw [h]; exact .inl rfl
  · rw [h]; exact .inl rfl
  all_goals
    obtain ⟨cw, -, rfl⟩ := rsdec_some hr
    have hu := crcfix_frame (s.unpack.setCw cw).repack
    rw [hc] at hu
    simp only at hu
    rw [h, hu]
  · exact .inl rfl
  · exact .inr rfl

/-! ## One sample -/

/-- Everything step 3 can do. -/
theorem searchSync_cases {s t : State} (h : searchSync s = some t) :
    (s.awaitingSync = false ∧ t = s) ∨
    (∃ u p, s.awaitingSync = true ∧ s.lookup = some (u, some p) ∧ t = u.setAwaitingSync false) ∨
    (s.awaitingSync = true ∧ s.lookup = some (t, none)) := by
  unfold searchSync at h
  cases ha : s.awaitingSync
  · simp [ha] at h; exact .inl ⟨rfl, h.symm⟩
  · refine .inr ?_
    simp only [ha, if_true] at h
    rcases hl : s.lookup with _ | ⟨u, _ | p⟩
    · simp [hl] at h
    · simp [hl] at h; exact .inr ⟨rfl, by rw [h]⟩
    · simp [hl] at h; exact .inl ⟨u, p, rfl, rfl, h.symm⟩

theorem searchSync_total {s : State} (h : Inv s) : ∃ t, searchSync s = some t := by
  unfold searchSync
  cases ha : s.awaitingSync
  · exact ⟨s, by simp⟩
  · obtain ⟨t, r, hl⟩ := lookup_total h
    cases r <;> simp [hl]

theorem searchSync_inv {s t : State} (h : Inv s) (hs : searchSync s = some t) : Inv t := by
  rcases searchSync_cases hs with ⟨-, rfl⟩ | ⟨u, p, -, hl, rfl⟩ | ⟨-, hl⟩
  · exact h
  · have := lookup_inv h hl
    exact ⟨this.config, this.window, this.ms_le⟩
  · exact lookup_inv h hl

/-- Everything steps 4 to 7 can do: no frame is ready and nothing happens, or one frame is extracted and processed. -/
theorem takeFrame_spec {s : State} (h : Inv s) :
    (frameReady s = false ∧ takeFrame s = some (s, [])) ∨
    ∃ f bit first, frameReady s = true ∧ readFrame s (List.finRange 12) s.ms true s.fr = some (f, bit) ∧
      s.idx[s.ms]? = some first ∧ takeFrame s = some (processFrame first (s.setFr f)) := by
  unfold takeFrame
  cases hr : frameReady s
  · exact .inl ⟨rfl, by simp⟩
  · refine .inr ?_
    have hg : s.ms + 95 * s.cfg.spb ≤ s.cfg.len - 1 := by
      simp only [frameReady, Bool.and_eq_true, decide_eq_true_eq] at hr
      exact hr.2
    have hl := h.config.len_ge
    obtain ⟨f, bit, hf, he⟩ := extract_ok h hg
    obtain ⟨-, -, ⟨first, hi⟩⟩ := h.window.read (p := s.ms) (by omega)
    rw [State.readIdx] at hi
    exact ⟨f, bit, first, rfl, hf, hi, by simp [he, State.readIdx, hi]⟩

/-- PUSH is its stages, each of which answers in a well-formed state. -/
theorem push_spec {s : State} (h : Inv s) (v : Sample) :
    ∃ t m u r, (s.bufpush v).corr = some (t, m) ∧ searchSync t = some u ∧ takeFrame u = some r ∧
      s.push v = some r ∧ Inv t ∧ Inv u := by
  obtain ⟨m, hm, -⟩ := corr_spec (bufpush_inv h v)
  have ht := corr_inv (bufpush_inv h v) hm
  obtain ⟨u, hu⟩ := searchSync_total ht
  have hu' := searchSync_inv ht hu
  rcases takeFrame_spec hu' with ⟨-, hr⟩ | ⟨f, bit, first, -, -, -, hr⟩
  · exact ⟨_, _, u, _, hm, hu, hr, by simp only [State.push, hm, hu, hr], ht, hu'⟩
  · exact ⟨_, _, u, _, hm, hu, hr, by simp only [State.push, hm, hu, hr], ht, hu'⟩

end Sys2Proof.Machine
end

