-- ==== Sys2Proof/Tests/Slice0.lean ====
section
/-! SUPPORT. Tests of single steps against the vectors of spec/95_test_vectors.md and the examples of the rules, and one
witness per obligation that its hypotheses can be met together. -/

namespace Sys2Proof.Tests

open Sys2Proof Sys2Proof.Machine

set_option Elab.async false

/-! ## Helpers -/

/-- The smallest window, L = 16, SPB = 1. -/
def tiny : Config := { spb := 1, halfWidth := 15000, len := 16, order := .highDegreeFirst }

/-- L = 128, SPB = 1: stream A of 95_test_vectors.md 7.2. -/
def mid : Config := { tiny with len := 128 }

/-- The state after a command, if it ends in one. -/
def after (i : Instr) (s : State) : Option State :=
  match exec i s with
  | .next t => some t
  | .fault _ => none
  | .refused _ => none

/-- The response of a command. -/
def answer (i : Instr) (s : State) : Option Response := (after i s).bind State.resp

/-- A reset L = 16 block with a frame, a codeword and a CRC register. -/
def holding (f : Frame) (cw : Codeword) (crc : Byte) : State :=
  { State.resetWith tiny with fr := f, cw := cw, crc := crc }

def zeroFrame : Frame := Vector.replicate 12 0
def zeroCw : Codeword := Vector.replicate 15 0

/-- A reset L = 16 block with a frame. -/
def withFrame (f : Frame) : State := holding f zeroCw 0

/-- A reset L = 16 block with a codeword. -/
def withCw (cw : Codeword) : State := holding zeroFrame cw 0

/-- Frames F1 and F2 on the wire (95_test_vectors.md 6.2). -/
def frame1 : Frame := #v[0x55, 0x55, 0x60, 0xAA, 0x47, 0x55, 0x4D, 0x2B, 0x97, 0xD9, 0x47, 0x50]
def frame2 : Frame := #v[0x55, 0x55, 0x60, 0xA2, 0x2C, 0x65, 0x6D, 0x6E, 0x1C, 0x82, 0xD7, 0x05]
/-- F2 with four symbol errors (scenario E) and with a wrong CRC byte (scenario F). -/
def frame2Rs : Frame := #v[0x55, 0x55, 0x60, 0xA2, 0x2E, 0x61, 0x65, 0x6E, 0x1C, 0x02, 0xD7, 0x05]
def frame2Crc : Frame := frame2.set 11 0x15

/-- The codeword of vectors E4 and D4 and its damaged forms D4 and D7 (95_test_vectors.md 3, 4). -/
def codeE4 : Codeword := #v[1, 2, 3, 4, 5, 6, 7, 8, 9, 2, 1, 3, 0xC, 0xF, 0xB]
def codeD4 : Codeword := #v[1, 2, 4, 4, 5, 6, 7, 8, 9, 1, 1, 3, 0xC, 3, 0xB]
def codeD7 : Codeword := #v[1, 2, 5, 4, 5, 6, 7, 5, 9, 2, 3, 3, 0xC, 4, 0xB]

/-- ±20000. -/
def plus : Sample := 20000
def minus : Sample := BitVec.ofInt 16 (-20000)

/-- The sample at the bit instant of frame bit n (95_test_vectors.md 7.1). -/
def bitSample (f : Frame) (n : Nat) : Sample :=
  let b := frameBit f n
  let before := if n = 0 then true else frameBit f (n - 1)
  if b = before then 0 else if b then plus else minus

/-- The L = 16 window after eight pairs of -20000, +20000 (95_test_vectors.md 9.2). -/
def alternating : State :=
  { State.resetWith tiny with
    smp := [minus, plus, minus, plus, minus, plus, minus, plus] ++ [minus, plus, minus, plus, minus, plus, minus, plus]
    idx := (List.range 16).map (BitVec.ofNat 32), ms := 0, cnt := 16 }

/-- The same with the flag of the sync word set. -/
def flagged : State := { alternating with flg := alternating.flg.set 0 true }

/-- Stream A after its push 100 with the given frame: bits 0..94 at positions 33..127, the last bit to come. -/
def beforeLastBit (f : Frame) : State :=
  { State.resetWith mid with
    smp := List.replicate 33 0 ++ (List.range 95).map (bitSample f)
    idx := List.replicate 33 0 ++ (List.range 95).map fun n => BitVec.ofNat 32 (n + 5)
    ms := 33, cnt := 100, awaitingSync := false }

/-- Stream A right after its push 101: the frame at positions 32..127, MS = 128. -/
def afterLastBit (f : Frame) : State :=
  { State.resetWith mid with
    smp := List.replicate 32 0 ++ (List.range 96).map (bitSample f), cnt := 101 }

/-- A block with a word on its command port. -/
def presented (w : Word) : State := { State.resetWith tiny with port := [.command w] }

/-! ## Well-formedness (30_encoding.md R86): an ill-formed term for each check -/

theorem test_wrcw_index_15_is_ill_formed : (Instr.wrcw 15 0).wellFormed = false := by decide
theorem test_rdcw_index_15_is_ill_formed : (Instr.rdcw 15).wellFormed = false := by decide
theorem test_wrfr_index_12_is_ill_formed : (Instr.wrfr 12 0).wellFormed = false := by decide
theorem test_rdfr_index_12_is_ill_formed : (Instr.rdfr 12).wellFormed = false := by decide
theorem test_rdbuf_beyond_the_window_is_not_legal : (Instr.rdbuf .smp 16).legalFor tiny = false := by decide
theorem test_rdbuf_at_the_end_is_legal : (Instr.rdbuf .smp 15).legalFor tiny = true := by decide

/-! ## Decoding: words written out from 30_encoding.md R81, R86 and 95_test_vectors.md 10 -/

theorem test_decode_system :
    decode 0b00000000000000000000000000000000 = .ok .nop ∧ decode 0b00000001000000000000000000000000 = .ok .init := by
  decide

theorem test_decode_codec :
    decode 0b00010000000000000000000000000000 = .ok .rsenc ∧ decode 0b00010001000000000000000000000000 = .ok .rsdec ∧
    decode 0b00010010000001000000000000001010 = .ok (.wrcw 4 0xA) ∧ decode 0x120E000F = .ok (.wrcw 14 15) ∧
    decode 0b00010011000001000000000000000000 = .ok (.rdcw 4) := by
  decide

theorem test_decode_crc :
    decode 0b00100000000000000000000000000000 = .ok .crcclr ∧
    decode 0b00100001000000000000000010101010 = .ok (.crcupd 0xAA) ∧
    decode 0b00100010000000000000000000000000 = .ok .crcget ∧
    decode 0b00100011000000000000000000000000 = .ok .crcfr := by
  decide

theorem test_decode_window :
    decode 0b00110000000000001011000111100000 = .ok (.bufpush (BitVec.ofInt 16 (-20000))) ∧
    decode 0b00110001000000000000000000000000 = .ok .corr ∧
    decode 0b00110010000000100000000001111111 = .ok (.rdbuf .idx 127) ∧ decode 0x32010005 = .ok (.rdbuf .flg 5) ∧
    decode 0b00110011000000100000000000000000 = .ok (.rdst .cnt) ∧ decode 0x33060000 = .ok (.rdst .len) := by
  decide

theorem test_decode_extraction :
    decode 0b01000000000000000000000000000000 = .ok .lookup ∧
    decode 0b01000001000000010000001101101010 = .ok (.rdbyte true 874) ∧ decode 0x41000008 = .ok (.rdbyte false 8) ∧
    decode 0b01000010000000000000000000100000 = .ok (.extract 32) := by
  decide

theorem test_decode_frame :
    decode 0x50000000 = .ok .validate ∧ decode 0x51000000 = .ok .unpack ∧ decode 0x52000000 = .ok .repack ∧
    decode 0x53000000 = .ok .crcfix ∧ decode 0x54000000 = .ok .descr ∧ decode 0x55000000 = .ok .fields ∧
    decode 0b01010110000010110000000001010000 = .ok (.wrfr 11 0x50) ∧
    decode 0b01010111000001110000000000000000 = .ok (.rdfr 7) := by
  decide

theorem test_decode_sequencer :
    decode 0b01100000000000000100111000100000 = .ok (.push 20000) ∧
    decode 0x6000B1E0 = .ok (.push (BitVec.ofInt 16 (-20000))) := by
  decide

/-- The illegal words of 95_test_vectors.md 10. -/
theorem test_decode_refuses_unlisted_opcodes :
    [0x02000000, 0x14000000, 0x24000000, 0x34000000, 0x43000000, 0x58000000, 0x61000000, 0x70000000,
      0xFF000000].map decode = List.replicate 9 (.error .reservedOpcode) := by
  decide

theorem test_decode_refuses_bad_operands :
    ([0x00000001, 0x00010000, 0x10000001, 0x11010000, 0x13040001, 0x21010000, 0x30010000, 0x60010000, 0x33000001,
      0x42010000, 0x57000001].map decode = List.replicate 11 (.error .mustBeZero)) ∧
    [0x120F0000, 0x12040010, 0x130F0000, 0x21000100, 0x32030000, 0x33070000, 0x41020000, 0x560C0000, 0x56000100,
      0x570C0000].map decode = List.replicate 10 (.error .outOfRange) := by
  decide

theorem test_table_words_reach_the_decoder :
    decodeTableWord 32 0x1204000A = some (.wrcw 4 0xA) ∧ decodeTableWord 8 0 = some .nop := by
  decide

/-! ## Steps -/

/-- 60_exceptions.md R257: WRCW with k = 15. -/
theorem test_step_answers_illegal :
    step (presented 0x120F0000) =
      .next { State.resetWith tiny with resp := some ⟨.illegal, 0⟩ } := by rfl

/-- RDST 6 from reset (95_test_vectors.md 9.4), presented through withFetchWord. -/
theorem test_step_runs_the_fetch_word :
    (match step (State.reset.withFetchWord 32 0x33060000) with
     | .next t => t.resp
     | .fault _ => none
     | .refused _ => none) = some ⟨.ok, 1024⟩ := by decide +kernel

/-! ## System commands (46_pipeline.md R240, R241) -/

theorem test_nop : after .nop (withFrame frame1) = some { withFrame frame1 with resp := some ⟨.ok, 0⟩ } := by rfl

theorem test_init :
    after .init { flagged with fr := frame1, crc := 5, awaitingSync := false } =
      some { State.resetWith tiny with resp := some ⟨.ok, 0⟩ } := by decide +kernel

/-! ## Codec (95_test_vectors.md 3, 4) -/

/-- Vector E4. -/
theorem test_rsenc :
    (after .rsenc (withCw #v[1, 2, 3, 4, 5, 6, 7, 8, 9, 0, 0, 0, 0, 0, 0])).map State.cw = some codeE4 := by
  decide +kernel

/-- F1 in the other symbol order: parity 2 1 D 2 0 2 (92_eei_decisions.md D5). -/
theorem test_rsenc_low_degree_first :
    (after .rsenc { State.resetWith { tiny with order := .lowDegreeFirst } with
      cw := #v[5, 2, 3, 0xA, 0xA, 0xA, 6, 9, 5, 0, 0, 0, 0, 0, 0] }).map State.cw =
      some #v[5, 2, 3, 0xA, 0xA, 0xA, 6, 9, 5, 2, 1, 0xD, 2, 0, 2] := by decide +kernel

/-- Vector D4: three errors. -/
theorem test_rsdec_corrects :
    after .rsdec (withCw codeD4) = some { withCw codeE4 with resp := some ⟨.ok, 0⟩ } := by decide +kernel

/-- Vector D7: L_Λ = 4. -/
theorem test_rsdec_fails :
    after .rsdec (withCw codeD7) = some { withCw codeD7 with resp := some ⟨.fail, 0⟩ } := by decide +kernel

/-- Rules R137, R138 of 41_rs_codec.md. -/
theorem test_wrcw : (after (.wrcw 4 0xA) (withCw zeroCw)).map State.cw =
    some #v[0, 0, 0, 0, 0xA, 0, 0, 0, 0, 0, 0, 0, 0, 0, 0] := by decide +kernel

theorem test_rdcw : answer (.rdcw 13) (withCw codeE4) = some ⟨.ok, 0xF⟩ := by decide +kernel

/-- Powers of a general base: 8² = C, F² = A, 2⁻⁷ = 5 (95_test_vectors.md 2), 7⁻¹ = 6, 0⁰ = 1, 0³ = 0 (40_gf16.md R106). -/
theorem test_gfPow :
    gfPow 8 2 = 0xC ∧ gfPow 0xF 2 = 0xA ∧ gfPow 2 (-7) = 5 ∧ gfPow 7 (-1) = 6 ∧ gfPow 0 0 = 1 ∧ gfPow 0 3 = 0 := by
  decide +kernel

/-! ## CRC (95_test_vectors.md 5) -/

theorem test_crcclr : (after .crcclr (holding frame1 zeroCw 0x5F)).map State.crc = some 0x00 := by decide +kernel

theorem test_crcupd : (after (.crcupd 0xAA) (withFrame frame1)).map State.crc = some 0x5F := by decide +kernel

theorem test_crcupd_from_a_value : (after (.crcupd 0x39) (holding frame1 zeroCw 0xC7)).map State.crc = some 0xF4 := by
  decide +kernel

theorem test_crcget : answer .crcget (holding frame1 zeroCw 0xF4) = some ⟨.ok, 0xF4⟩ := by decide +kernel

theorem test_crcfr : answer .crcfr (holding frame2 zeroCw 0x77) = some ⟨.ok, 0x05⟩ := by decide +kernel

/-! ## Window (43_window_sync.md R162; 95_test_vectors.md 9) -/

/-- The example of R162 (L = 4, on the operation itself: such a block is not legal). -/
theorem test_bufpush_shifts_live_positions_only :
    let s := { State.resetWith { tiny with len := 4 } with smp := [7, 8, 5, 6], ms := 2, cnt := 9 }
    let t := s.bufpush (BitVec.ofInt 16 (-3))
    t.smp = [7, 5, 6, BitVec.ofInt 16 (-3)] ∧ t.idx[3]? = some 9 ∧ t.ms = 1 ∧ t.cnt = 10 := by decide

/-- The full window loses its first sample and says bufferFull. -/
theorem test_bufpush_on_a_full_window :
    (after (.bufpush 0) flagged).map (fun t => (t.smp[0]?, t.flg[0]?, t.ms, t.cnt, t.resp)) =
      some (some plus, some false, 0, 17, some ⟨.ok, 1⟩) := by decide +kernel

theorem test_corr_finds_the_sync_word :
    after .corr alternating = some { flagged with resp := some ⟨.ok, 1⟩ } := by decide +kernel

/-- Sample 5 replaced by 15000, which is in band. -/
theorem test_corr_rejects_an_in_band_tap :
    answer .corr { alternating with smp := alternating.smp.set 5 15000 } = some ⟨.ok, 0⟩ := by decide +kernel

/-- Line bits from..from + 15 of F2 with every sample negated. -/
def inverted (start : Nat) : State :=
  { State.resetWith tiny with smp := (List.range 16).map fun k => -bitSample frame2 (start + k), ms := 0 }

/-- Inverted polarity, at the frame start: no flag (70_reset_and_hazards.md R287). -/
theorem test_corr_rejects_inverted_sync : answer .corr (inverted 0) = some ⟨.ok, 0⟩ := by decide +kernel

/-- Inverted polarity, one bit late: by 43_window_sync.md R166 the negated bits 1..16 are the sync pattern (log entry 11). -/
theorem test_corr_finds_inverted_sync_one_bit_late : answer .corr (inverted 1) = some ⟨.ok, 1⟩ := by decide +kernel

theorem test_rdbuf : answer (.rdbuf .smp 2) alternating = some ⟨.ok, 0xB1E0⟩ := by decide +kernel

theorem test_rdbuf_beyond_the_window : answer (.rdbuf .smp 16) alternating = some ⟨.illegal, 0⟩ := by decide +kernel

theorem test_rdst_buffer_full : answer (.rdst .bufferFull) alternating = some ⟨.ok, 1⟩ := by decide +kernel

theorem test_rdst_counter : answer (.rdst .cnt) alternating = some ⟨.ok, 16⟩ := by decide +kernel

/-! ## Extraction (95_test_vectors.md 7.2, 9.2, 9.3) -/

theorem test_lookup_hit : after .lookup flagged = some { flagged with resp := some ⟨.ok, 0⟩ } := by decide +kernel

/-- No flag: FAIL, and MS = L - 15·SPB all the same. -/
theorem test_lookup_miss :
    after .lookup alternating = some { alternating with ms := 1, resp := some ⟨.fail, 0⟩ } := by decide +kernel

/-- 0, -20000, 0, 0, 0, 0, +20000, -20000 at positions 10..17 (44_extract.md R184). -/
theorem test_rdbyte :
    answer (.rdbyte true 10)
      { State.resetWith mid with smp := List.replicate 10 0 ++ [0, minus, 0, 0, 0, 0, plus, minus] ++ List.replicate 110 0 } =
      some ⟨.ok, 0x0000120082⟩ := by decide +kernel

theorem test_rdbyte_beyond_the_window : answer (.rdbyte true 9) alternating = some ⟨.fail, 0⟩ := by decide +kernel

/-- EXTRACT 32: F1, running bit 0, next start 128. -/
theorem test_extract :
    (after (.extract 32) (afterLastBit frame1)).map (fun t => (t.fr, t.resp)) =
      some (frame1, some ⟨.ok, BitVec.ofNat 64 (128 * 2 ^ 16)⟩) := by decide +kernel

/-- One bit early the extractor reads garbage. -/
theorem test_extract_one_bit_early :
    (after (.extract 31) (afterLastBit frame1)).map State.fr =
      some #v[0xAA, 0xAA, 0xB0, 0x55, 0x23, 0xAA, 0xA6, 0x95, 0xCB, 0xEC, 0xA3, 0xA8] := by decide +kernel

/-! ## Frame processing (95_test_vectors.md 6) -/

theorem test_validate : answer .validate (withFrame frame1) = some ⟨.ok, 0⟩ := by decide +kernel

theorem test_validate_rejects_a_wrong_prefix :
    answer .validate (withFrame (frame2.set 3 0xC2)) = some ⟨.fail, 0⟩ := by decide +kernel

/-- The example of 45_frame_fec.md R204. -/
theorem test_unpack :
    (after .unpack (withFrame #v[0x55, 0x55, 0x60, 0xB7, 0x9C, 0x3E, 0x81, 0x6D, 0x12, 0x34, 0x56, 0x78])).map State.cw =
      some #v[0xB, 0xC, 0xE, 1, 0xF, 4, 0, 0xB, 6, 1, 2, 3, 4, 5, 6] := by decide +kernel

/-- The second example of 45_frame_fec.md R206. -/
theorem test_repack :
    (after .repack (withFrame #v[0x55, 0x55, 0x60, 0xFF, 0xFF, 0xFF, 0xFF, 0xFF, 0xFF, 0xFF, 0xFF, 0xFF])).map State.fr =
      some #v[0x55, 0x55, 0x60, 0xE0, 0, 0, 0, 0x01, 0, 0, 0, 0xFF] := by decide +kernel

theorem test_crcfix_flips_sk1 :
    after .crcfix (withFrame (frame2.set 7 0x6F)) =
      some { withFrame frame2 with crc := 0x05, resp := some ⟨.ok, 1⟩ } := by decide +kernel

theorem test_crcfix_fails :
    after .crcfix (withFrame frame2Crc) =
      some { withFrame frame2Crc with crc := 0x02, resp := some ⟨.fail, 0⟩ } := by decide +kernel

theorem test_descr :
    (after .descr (withFrame frame2)).map State.fr =
      some #v[0x55, 0x55, 0x60, 0xA8, 0x6B, 0x30, 0x20, 0x45, 0x1C, 0x82, 0xD7, 0x05] := by decide +kernel

/-- F1 without DESCR. -/
theorem test_fields : answer .fields (withFrame frame1) = some ⟨.ok, 0x348148EAA9A⟩ := by decide +kernel

/-- F2 after DESCR. -/
theorem test_fields_of_a_descrambled_frame :
    answer .fields (withFrame (descramble frame2)) = some ⟨.ok, 0x19010D66040⟩ := by decide +kernel

theorem test_wrfr : (after (.wrfr 11 0x50) (withFrame zeroFrame)).map (fun t => t.fr[11]) = some 0x50 := by
  decide +kernel

theorem test_rdfr : answer (.rdfr 7) (withFrame frame2) = some ⟨.ok, 0x6E⟩ := by decide +kernel

/-! ## Sequencer (95_test_vectors.md 7.2, 8) -/

/-- Push 101 of stream A. -/
theorem test_push_decodes_a_frame :
    (after (.push 0) (beforeLastBit frame1)).map (fun t => (t.events, t.ms, t.awaitingSync, t.crc)) =
      some ([.rawFrame frame1 5, .rsFrame frame1 5, .crcFrame frame1 5,
        .timeData ⟨0, 946684800, 0, false, false, false, .normal⟩ 5], 128, true, 0x50) := by decide +kernel

/-- The four symbol errors of scenario E. -/
theorem test_push_reports_an_rs_failure :
    (after (.push plus) (beforeLastBit frame2Rs)).map (fun t => (t.events, t.ms, t.awaitingSync, t.fr)) =
      some ([.rawFrame frame2Rs 5, .error .rsCorrectionFailed], 33, true, frame2Rs) := by decide +kernel

/-! ## Witnesses: the hypotheses of each obligation met together -/

theorem legal {c : Config} (h : configLegal c = true) : LegalConfig c := (configLegal_iff c).1 h

theorem inv {s : State} (h : (configLegal s.cfg && decide (Memory.wf s) && decide (s.ms ≤ s.cfg.len)) = true) : Inv s := by
  rw [Bool.and_eq_true, Bool.and_eq_true, decide_eq_true_eq, decide_eq_true_eq] at h
  exact ⟨legal h.1.1, h.1.2, h.2⟩

/-- A command that ends in a state. -/
theorem next_of_after {i : Instr} {s t : State} (h : after i s = some t) : exec i s = .next t := by
  unfold after at h
  split at h <;> simp_all

theorem tiny_legal : LegalConfig tiny := legal (by decide)
theorem mid_legal : LegalConfig mid := legal (by decide)
theorem reset_legal : LegalConfig State.reset.cfg := legal (by decide)
theorem flagged_inv : Inv flagged := inv (by decide +kernel)
theorem alternating_inv : Inv alternating := inv (by decide +kernel)
theorem tiny_reset_inv : Inv (State.resetWith tiny) := inv (by decide +kernel)

/-! ### Encoding -/

theorem witness_WellFormedCommandsDecodeToThemselves :
    (Instr.wrcw 14 15).wellFormed = true ∧ (Instr.wrfr 11 255).wellFormed = true ∧ Instr.corr.wellFormed = true := by
  decide

theorem witness_DecodedWordIsTheCommandsEncoding : decode 0x120E000F = .ok (.wrcw 14 15) := by decide

theorem witness_LegalWordsAreTheTablesRows :
    1 ≤ tiny.len ∧ MatchesTable tiny.len 0x3200000F ∧ ¬ MatchesTable tiny.len 0x32000010 := by
  unfold MatchesTable; decide

theorem witness_StepRunsThePresentedCommand :
    (presented 0x120E000F).port = [.command 0x120E000F] ∧ decode 0x120E000F = .ok (.wrcw 14 15) := by decide

theorem witness_IllegalWordsAnswerIllegal :
    LegalConfig (presented 0x32000010).cfg ∧ (presented 0x32000010).port = [.command 0x32000010] ∧
      ¬ MatchesTable (presented 0x32000010).cfg.len 0x32000010 :=
  ⟨tiny_legal, rfl, by unfold MatchesTable; decide⟩

theorem witness_IdleBlockHoldsItsState : LegalConfig State.reset.cfg ∧ State.reset.port = [] := ⟨reset_legal, rfl⟩

theorem witness_ResetInputGivesTheResetState :
    LegalConfig ({ flagged with port := [.reset] } : State).cfg ∧ ({ flagged with port := [.reset] } : State).port = [.reset] :=
  ⟨tiny_legal, rfl⟩

/-- SPB = 2 is the least SPB that L = 16 refuses; SPB = 0 is refused whatever L is. -/
theorem witness_IllegalConfigurationIsRefused :
    ¬ LegalConfig (State.resetWith { tiny with spb := 2 }).cfg ∧ ¬ LegalConfig (State.resetWith { tiny with spb := 0 }).cfg := by
  simp only [← configLegal_iff]; decide

/-! ### Reset and invariants -/

theorem witness_ResetValuesAreAsListed : 15 < tiny.len ∧ (State.resetWith tiny).smp[15]? = some 0 := by decide

theorem witness_ResetMeetsTheInvariants : LegalConfig tiny ∧ LegalConfig { tiny with len := 65535, spb := 255 } :=
  ⟨tiny_legal, legal (by decide)⟩

theorem flagged_low : FlagsLow flagged := by
  intro p hp h
  have hl : p < flagged.flg.length := (List.getElem?_eq_some_iff.1 h).1
  have hl' : p < 16 := hl
  have hp' : 0 < p := hp
  interval_cases p <;> exact absurd h (by decide)

theorem flagged_sound : FlagSound flagged := by
  intro p _ hp _
  have : p = 0 := Nat.le_zero.1 hp
  subst this
  intro k hk
  interval_cases k <;> exact ⟨_, rfl, by decide, by decide⟩

/-- A step on a well-formed window with a true flag. -/
theorem stepping : ∃ t, step { flagged with port := [.command 0x40000000] } = .next t ∧ t.ms = 0 := ⟨_, rfl, by decide +kernel⟩

theorem witness_StepKeepsTheWindowWellFormed :
    Inv { flagged with port := [.command 0x40000000] } ∧
      ∃ t, step { flagged with port := [.command 0x40000000] } = .next t :=
  ⟨inv (by decide +kernel), stepping.imp fun _ h => h.1⟩

theorem witness_StepKeepsHighFlagsFalse :
    Inv { flagged with port := [.command 0x40000000] } ∧ FlagsLow { flagged with port := [.command 0x40000000] } ∧
      ∃ t, step { flagged with port := [.command 0x40000000] } = .next t :=
  ⟨inv (by decide +kernel), flagged_low, stepping.imp fun _ h => h.1⟩

theorem witness_StepKeepsFlagsSound :
    Inv { flagged with port := [.command 0x40000000] } ∧ FlagsLow { flagged with port := [.command 0x40000000] } ∧
      FlagSound { flagged with port := [.command 0x40000000] } ∧
      ∃ t, step { flagged with port := [.command 0x40000000] } = .next t :=
  ⟨inv (by decide +kernel), flagged_low, flagged_sound, stepping.imp fun _ h => h.1⟩

theorem witness_NoAccessLeavesTheWindow : Inv State.reset := inv (by decide +kernel)

theorem witness_OnlyTheListedCommandsWrite :
    (∃ t, exec .lookup alternating = .next t) ∧ (∀ v, Instr.lookup ≠ .push v) ∧ Instr.lookup ≠ .init ∧
      (∀ v, Instr.lookup ≠ .bufpush v) ∧ Instr.lookup ≠ .corr ∧ (∃ t, exec .nop flagged = .next t) :=
  ⟨⟨_, next_of_after test_lookup_miss⟩, by simp, by simp, by simp, by simp, ⟨_, rfl⟩⟩

theorem witness_ConfigurationIsReadOnly :
    (∃ t, exec .lookup alternating = .next t) ∧ ∃ t, step { flagged with port := [.command 0x40000000] } = .next t :=
  ⟨⟨_, next_of_after test_lookup_miss⟩, stepping.imp fun _ h => h.1⟩

theorem witness_OnlyPushEmitsEvents : (∃ t, exec .lookup alternating = .next t) ∧ ∀ v, Instr.lookup ≠ .push v :=
  ⟨⟨_, next_of_after test_lookup_miss⟩, by simp⟩

theorem witness_ReadingCommandsChangeNoState : (∃ a, Instr.rdst .ms = .rdst a) ∧ ∃ t, exec (.rdst .ms) flagged = .next t :=
  ⟨⟨_, rfl⟩, ⟨_, rfl⟩⟩

/-! ### Commands that need a legal configuration alone -/

theorem witness_NopChangesNothing : LegalConfig (withFrame frame1).cfg := tiny_legal
theorem witness_InitRestoresTheResetValues : LegalConfig flagged.cfg := tiny_legal
theorem witness_RsencCompletesACodeword : LegalConfig (withCw codeE4).cfg := tiny_legal
theorem witness_RsdecAnswersOkOrFail : LegalConfig (withCw codeD7).cfg := tiny_legal
theorem witness_CrcIsLinear : LegalConfig (withFrame frame1).cfg := tiny_legal
theorem witness_CrcClearAndRead : LegalConfig (holding frame1 zeroCw 0x5F).cfg := tiny_legal
theorem witness_CrcUpdateFoldsOneByte : LegalConfig (holding frame1 zeroCw 0x5F).cfg := tiny_legal
theorem witness_FrameCrcFoldsTheMessageBytes : LegalConfig (withFrame frame1).cfg := tiny_legal
theorem witness_RdstReadsOneScalar : LegalConfig alternating.cfg := tiny_legal
theorem witness_UnpackReadsTheSymbolBits : LegalConfig (withFrame frame1).cfg := tiny_legal
theorem witness_RepackWritesTheSymbolBits : LegalConfig (withCw codeE4).cfg := tiny_legal
theorem witness_DescrXorsTheKey : LegalConfig (withFrame frame1).cfg := tiny_legal
theorem witness_FieldsReturnsTheMessageFields : LegalConfig (withFrame frame1).cfg := tiny_legal

/-! ### Codec and CRC -/

theorem codeE4_is_codeword : IsCodeword tiny.order codeE4 := by
  intro i h1 h2
  interval_cases i <;> decide +kernel

theorem witness_RsdecLeavesCodewordsUnchanged :
    LegalConfig (withCw codeE4).cfg ∧ IsCodeword (withCw codeE4).cfg.order (withCw codeE4).cw :=
  ⟨tiny_legal, codeE4_is_codeword⟩

theorem witness_RsdecOkIsANearbyCodeword : ∃ t, exec .rsdec (withCw codeD4) = .next t ∧ t.resp = some ⟨.ok, 0⟩ :=
  ⟨_, next_of_after test_rsdec_corrects, rfl⟩

/-- Three symbols differ: the boundary. -/
theorem witness_RsdecCorrectsThreeSymbolErrors :
    LegalConfig (withCw codeD4).cfg ∧ IsCodeword (withCw codeD4).cfg.order codeE4 ∧
      symbolDistance (withCw codeD4).cw codeE4 = 3 :=
  ⟨tiny_legal, codeE4_is_codeword, by decide +kernel⟩

theorem witness_SymbolAccessReadsAndWrites :
    LegalConfig (withCw codeE4).cfg ∧ (14 : BitVec 4).toNat < 15 ∧ 14 < (15 : BitVec 4).toNat :=
  ⟨tiny_legal, by decide, by decide⟩

/-- The last bit of byte 7 and the first bit of byte 3. -/
theorem witness_SingleBitFlipChangesTheCrc :
    LegalConfig (withFrame frame1).cfg ∧
    (frameBit (withFrame (withSk1Flipped frame1)).fr 63 = !frameBit (withFrame frame1).fr 63 ∧
      ∀ m, m < 96 → m ≠ 63 → frameBit (withFrame (withSk1Flipped frame1)).fr m = frameBit (withFrame frame1).fr m) ∧
    (frameBit (withFrame (frame1.set 3 0x2A)).fr 24 = !frameBit (withFrame frame1).fr 24 ∧
      ∀ m, m < 96 → m ≠ 24 → frameBit (withFrame (frame1.set 3 0x2A)).fr m = frameBit (withFrame frame1).fr m) := by
  refine ⟨tiny_legal, ?_⟩
  decide +kernel

/-! ### Window and extraction -/

/-- MS = L, MS = 0 and a position on either side of MS. -/
theorem witness_BufpushShiftsTheWindow :
    (Inv (State.resetWith tiny) ∧ 0 + 1 < (State.resetWith tiny).ms) ∧ (Inv flagged ∧ flagged.ms ≤ 1 ∧ 1 < flagged.cfg.len) ∧
      Inv { alternating with ms := 16 } :=
  ⟨⟨tiny_reset_inv, by decide⟩, ⟨flagged_inv, by decide, by decide⟩, inv (by decide +kernel)⟩

theorem witness_CorrStoresTheSyncMatch : Inv alternating := alternating_inv

theorem witness_RdbufReadsOneElement :
    Inv alternating ∧ (15 : BitVec 16).toNat < alternating.cfg.len ∧ alternating.cfg.len ≤ (16 : BitVec 16).toNat :=
  ⟨alternating_inv, by decide, by decide⟩

/-- No flag; a flag that reads 0x55, 0x55; a flag over zero samples. -/
theorem witness_LookupScansTheFlags :
    (Inv alternating ∧ ∀ p, alternating.ms ≤ p → p < alternating.cfg.len - 15 * alternating.cfg.spb →
      alternating.flg[p]? ≠ some true) ∧
    (Inv flagged ∧ flagged.ms ≤ 0 ∧ 0 < flagged.cfg.len - 15 * flagged.cfg.spb ∧ flagged.flg[0]? = some true ∧
      (∀ q, flagged.ms ≤ q → q < 0 → flagged.flg[q]? ≠ some true) ∧
      ∀ n, n < 16 → lineBit flagged 0 true n = decide (n % 2 = 1)) ∧
    (Inv { State.resetWith tiny with ms := 0, flg := flagged.flg } ∧
      ¬ ∀ n, n < 16 →
        lineBit { State.resetWith tiny with ms := 0, flg := flagged.flg } 0 true n = decide (n % 2 = 1)) := by
  refine ⟨⟨alternating_inv, ?_⟩, ⟨flagged_inv, by decide, by decide, by decide, by omega, by decide +kernel⟩,
    inv (by decide +kernel), by decide +kernel⟩
  intro p _ hp
  have : p = 0 := by
    have h : p < 1 := hp
    omega
  subst this
  decide

theorem witness_LookupConfirmsSoundFlags :
    Inv flagged ∧ FlagSound flagged ∧ flagged.ms ≤ 0 ∧ 0 < flagged.cfg.len - 15 * flagged.cfg.spb ∧
      flagged.flg[0]? = some true ∧ ∀ q, flagged.ms ≤ q → q < 0 → flagged.flg[q]? ≠ some true :=
  ⟨flagged_inv, flagged_sound, by decide, by decide, by decide, by omega⟩

/-- The last start that fits and the first that does not. -/
theorem witness_RdbyteReadsEightLineBits :
    Inv alternating ∧ (8 : BitVec 16).toNat + 7 * alternating.cfg.spb ≤ alternating.cfg.len - 1 ∧
      alternating.cfg.len - 1 < (9 : BitVec 16).toNat + 7 * alternating.cfg.spb :=
  ⟨alternating_inv, by decide, by decide⟩

theorem witness_ExtractReadsTheFrameBits :
    Inv (afterLastBit frame1) ∧ (32 : BitVec 16).toNat + 95 * mid.spb ≤ mid.len - 1 ∧
      mid.len - 1 < (33 : BitVec 16).toNat + 95 * mid.spb :=
  ⟨inv (by decide +kernel), by decide, by decide⟩

/-! ### Frame processing -/

theorem frame1_static : StaticFields frame1 := by unfold StaticFields; decide +kernel

theorem witness_ValidateChecksTheStaticFields :
    LegalConfig (withFrame frame1).cfg ∧ StaticFields frame1 ∧ ¬ StaticFields (frame1.set 2 0x61) :=
  ⟨tiny_legal, frame1_static, by unfold StaticFields; decide +kernel⟩

theorem witness_PackingRoundTrips :
    (∃ t u, exec .unpack (withFrame frame1) = .next t ∧ exec .repack t = .next u) ∧
      ∃ t u, exec .repack (withCw codeE4) = .next t ∧ exec .unpack t = .next u :=
  ⟨⟨_, _, rfl, rfl⟩, ⟨_, _, rfl, rfl⟩⟩

/-- F2 as it stands; with SK1 flipped; with a wrong CRC byte. -/
theorem witness_CrcfixTriesTheSk1Flip :
    LegalConfig (withFrame frame2).cfg ∧ messageCrc frame2 = frame2[11] ∧
      (messageCrc (withSk1Flipped frame2) ≠ (withSk1Flipped frame2)[11] ∧
        messageCrc (withSk1Flipped (withSk1Flipped frame2)) = (withSk1Flipped frame2)[11]) ∧
      (messageCrc frame2Crc ≠ frame2Crc[11] ∧ messageCrc (withSk1Flipped frame2Crc) ≠ frame2Crc[11]) := by
  refine ⟨tiny_legal, ?_⟩
  decide +kernel

theorem witness_CrcfixRestoresAFlippedSk1 :
    LegalConfig (withFrame (withSk1Flipped frame2)).cfg ∧ messageCrc frame2 = frame2[11] ∧
      (withFrame (withSk1Flipped frame2)).fr = withSk1Flipped frame2 :=
  ⟨tiny_legal, by decide +kernel, rfl⟩

theorem witness_FrameByteAccessReadsAndWrites :
    LegalConfig (withFrame frame1).cfg ∧ (11 : BitVec 4).toNat < 12 ∧ 11 < (12 : BitVec 4).toNat :=
  ⟨tiny_legal, by decide, by decide⟩

theorem witness_EncodedFramesDecodeUnchanged :
    LegalConfig (withFrame frame1).cfg ∧ StaticFields (withFrame frame1).fr := ⟨tiny_legal, frame1_static⟩

theorem witness_EventPortEncodesTheEvent : ∃ e, e = Event.rsFrame frame1 5 := ⟨_, rfl⟩

/-! ### Sequencer -/

/-- Fifteen alternating samples, the sixteenth to come. -/
def beforeSync : State :=
  { State.resetWith tiny with
    smp := [0, minus, plus, minus, plus, minus, plus, minus] ++ [plus, minus, plus, minus, plus, minus, plus, minus]
    ms := 1, cnt := 15 }

/-- A missed LOOKUP; a hit whose frame cannot be complete; a known frame start that waits. -/
theorem witness_PushRunsTheWindowCommandsInOrder :
    (∃ u w x, exec (.bufpush 0) (State.resetWith tiny) = .next u ∧ exec .corr u = .next w ∧ exec .lookup w = .next x ∧
      (State.resetWith tiny).awaitingSync = true ∧ x.resp = some ⟨.fail, 0⟩) ∧
    (Inv beforeSync ∧ ∃ u w x, exec (.bufpush plus) beforeSync = .next u ∧ exec .corr u = .next w ∧
      exec .lookup w = .next x ∧ beforeSync.awaitingSync = true ∧ x.resp ≠ some ⟨.fail, 0⟩ ∧
      beforeSync.cfg.len - 1 < x.ms + 95 * beforeSync.cfg.spb) ∧
    ∃ u w, exec (.bufpush 0) { beforeSync with awaitingSync := false } = .next u ∧ exec .corr u = .next w ∧
      beforeSync.cfg.len - 1 < w.ms + 95 * beforeSync.cfg.spb :=
  ⟨⟨_, _, _, rfl, rfl, rfl, rfl, by decide +kernel⟩,
    ⟨inv (by decide +kernel), _, _, _, rfl, rfl, rfl, rfl, by decide +kernel, by decide +kernel⟩,
    ⟨_, _, rfl, rfl, by decide +kernel⟩⟩

/-- A complete frame whose start was known, with what is said of the state of step 4. -/
theorem complete_known {s : State} {v : Sample} (p : State → Bool) (ha : s.awaitingSync = false)
    (h : ((after (.bufpush v) s).bind (after .corr)).map
      (fun x => decide (x.ms + 95 * x.cfg.spb ≤ x.cfg.len - 1) && p x) = some true) :
    ∃ x, FrameComplete s v x ∧ p x = true := by
  obtain ⟨x, hx, hp⟩ := Option.map_eq_some_iff.1 h
  obtain ⟨u, hu, hw⟩ := Option.bind_eq_some_iff.1 hx
  rw [Bool.and_eq_true, decide_eq_true_eq] at hp
  exact ⟨x, ⟨u, x, next_of_after hu, next_of_after hw, .inl ⟨ha, rfl⟩, hp.1⟩, hp.2⟩

/-- A complete frame whose start the same PUSH finds. -/
theorem complete_found {s : State} {v : Sample} (p : State → Bool) (ha : s.awaitingSync = true)
    (h : (((after (.bufpush v) s).bind (after .corr)).bind (after .lookup)).map
      (fun x => decide (x.resp ≠ some ⟨.fail, 0⟩) && decide (x.ms + 95 * x.cfg.spb ≤ x.cfg.len - 1) && p x) = some true) :
    ∃ x, FrameComplete s v x ∧ p x = true := by
  obtain ⟨x, hx, hp⟩ := Option.map_eq_some_iff.1 h
  obtain ⟨w, hw, hl⟩ := Option.bind_eq_some_iff.1 hx
  obtain ⟨u, hu, hc⟩ := Option.bind_eq_some_iff.1 hw
  rw [Bool.and_eq_true, Bool.and_eq_true, decide_eq_true_eq, decide_eq_true_eq] at hp
  exact ⟨x, ⟨u, w, next_of_after hu, next_of_after hc, .inr ⟨ha, next_of_after hl, hp.1.1⟩, hp.1.2⟩, hp.2⟩

/-- The frame is complete, its sync flag is set, and the sequencer is still searching. -/
def beforeLastBitSearching (f : Frame) : State :=
  { beforeLastBit f with flg := (beforeLastBit f).flg.set 33 true, awaitingSync := true }

/-- Search and extraction in one PUSH (46_pipeline.md R231 steps 3 and 4). -/
theorem test_push_extracts_in_the_push_that_finds_the_start :
    (after (.push 0) (beforeLastBitSearching frame1)).map (fun t => (t.events.length, t.ms, t.awaitingSync)) =
      some (4, 128, true) := by decide +kernel

theorem witness_PushEmitsALegalEventList : Inv (beforeLastBit frame1) := inv (by decide +kernel)

/-- The event list of a state that PUSH reaches. -/
theorem push_events {s : State} {v : Sample} {l : List Event} (h : (after (.push v) s).map State.events = some l) :
    ∃ t, exec (.push v) s = .next t ∧ t.events = l := by
  obtain ⟨t, ht, he⟩ := Option.map_eq_some_iff.1 h
  exact ⟨t, next_of_after ht, he⟩

/-- Each of the four event lists. -/
theorem witness_PushLeavesTheFrameRegisters_by_events :
    (Inv (State.resetWith tiny) ∧ ∃ t, exec (.push 0) (State.resetWith tiny) = .next t ∧ t.events = []) ∧
    (Inv (beforeLastBit frame2Rs) ∧ ∃ t, exec (.push plus) (beforeLastBit frame2Rs) = .next t ∧
      t.events = [.rawFrame frame2Rs 5, .error .rsCorrectionFailed]) ∧
    (Inv (beforeLastBit frame2Crc) ∧ ∃ t, exec (.push plus) (beforeLastBit frame2Crc) = .next t ∧
      t.events = [.rawFrame frame2Crc 5, .rsFrame frame2Crc 5, .error .crcCorrectionFailed]) ∧
    (Inv (beforeLastBit frame1) ∧ ∃ t, exec (.push 0) (beforeLastBit frame1) = .next t ∧
      t.events = [.rawFrame frame1 5, .rsFrame frame1 5, .crcFrame frame1 5,
        .timeData ⟨0, 946684800, 0, false, false, false, .normal⟩ 5]) :=
  ⟨⟨tiny_reset_inv, push_events (by decide +kernel)⟩, ⟨inv (by decide +kernel), push_events (by decide +kernel)⟩,
    ⟨inv (by decide +kernel), push_events (by decide +kernel)⟩,
    ⟨inv (by decide +kernel), push_events (by decide +kernel)⟩⟩

/-- What UNPACK and RSDEC, and after them REPACK and CRCFIX, answer on the frame at MS. -/
def frameAnswers (x : State) : Option (Bool × Option Response × Option Response) := do
  let e ← after (.extract (BitVec.ofNat 16 x.ms)) x
  let d ← (after .unpack e).bind (after .rsdec)
  let c ← (after .repack d).bind (after .crcfix)
  return (staticFieldsOk e.fr, d.resp, c.resp)

/-- A complete frame of each of the four fates, its start known, and one whose start the same PUSH finds. -/
theorem witness_PushLeavesTheFrameRegisters_by_units :
    (Inv (beforeLastBit (frame1.set 2 0x61)) ∧ ∃ x, FrameComplete (beforeLastBit (frame1.set 2 0x61)) 0 x ∧
      ((frameAnswers x).map fun r => !r.1) = some true) ∧
    (Inv (beforeLastBit frame2Rs) ∧ ∃ x, FrameComplete (beforeLastBit frame2Rs) plus x ∧
      ((frameAnswers x).map fun r => r.1 && r.2.1 == some ⟨.fail, 0⟩) = some true) ∧
    (Inv (beforeLastBit frame2Crc) ∧ ∃ x, FrameComplete (beforeLastBit frame2Crc) plus x ∧
      ((frameAnswers x).map fun r => r.1 && r.2.1 == some ⟨.ok, 0⟩ && r.2.2 == some ⟨.fail, 0⟩) = some true) ∧
    (Inv (beforeLastBit frame1) ∧ ∃ x, FrameComplete (beforeLastBit frame1) 0 x ∧
      ((frameAnswers x).map fun r => r.1 && r.2.1 == some ⟨.ok, 0⟩ && r.2.2 == some ⟨.ok, 0⟩) = some true) ∧
    (Inv (beforeLastBitSearching frame1) ∧ ∃ x, FrameComplete (beforeLastBitSearching frame1) 0 x) := by
  have eqTrue : ∀ o : Option Bool, (o == some true) = true → o = some true := by decide
  refine ⟨⟨inv (by decide +kernel), ?_⟩, ⟨inv (by decide +kernel), ?_⟩, ⟨inv (by decide +kernel), ?_⟩,
    ⟨inv (by decide +kernel), ?_⟩, inv (by decide +kernel), ?_⟩
  · exact (complete_known (fun x => ((frameAnswers x).map fun r => !r.1) == some true) rfl (by decide +kernel)).imp
      fun _ h => ⟨h.1, eqTrue _ h.2⟩
  · exact (complete_known (fun x => ((frameAnswers x).map fun r => r.1 && r.2.1 == some ⟨.fail, 0⟩) == some true) rfl
      (by decide +kernel)).imp fun _ h => ⟨h.1, eqTrue _ h.2⟩
  · exact (complete_known (fun x => ((frameAnswers x).map fun r =>
      r.1 && r.2.1 == some ⟨.ok, 0⟩ && r.2.2 == some ⟨.fail, 0⟩) == some true) rfl
      (by decide +kernel)).imp fun _ h => ⟨h.1, eqTrue _ h.2⟩
  · exact (complete_known (fun x => ((frameAnswers x).map fun r =>
      r.1 && r.2.1 == some ⟨.ok, 0⟩ && r.2.2 == some ⟨.ok, 0⟩) == some true) rfl
      (by decide +kernel)).imp fun _ h => ⟨h.1, eqTrue _ h.2⟩
  · exact (complete_found (fun _ => true) rfl (by decide +kernel)).imp fun _ h => h.1

theorem frame1_is_codeword : IsCodeword mid.order (unpackFrame frame1) := by
  intro i h1 h2
  interval_cases i <;> decide +kernel

/-- The frame's bits stand in the window from MS on, and the index at MS is 5. -/
def cleanAt (f : Frame) (x : State) : Bool :=
  decide (∀ n : Nat, n < 96 → lineBit x x.ms true n = frameBit f n) && decide (x.idx[x.ms]? = some 5)

theorem clean_of {s : State} {v : Sample} {f : Frame} (h : ∃ x, FrameComplete s v x ∧ cleanAt f x = true) :
    ∃ x, FrameComplete s v x ∧ (∀ n, n < 96 → lineBit x x.ms true n = frameBit f n) ∧ x.idx[x.ms]? = some 5 := by
  obtain ⟨x, hx, hp⟩ := h
  rw [cleanAt, Bool.and_eq_true, decide_eq_true_eq, decide_eq_true_eq] at hp
  exact ⟨x, hx, hp⟩

/-- The start known, and the start found by the same PUSH. -/
theorem witness_PushDecodesACleanFrame :
    (Inv (beforeLastBit frame1) ∧ ∃ x, FrameComplete (beforeLastBit frame1) 0 x ∧
      (∀ n, n < 96 → lineBit x x.ms true n = frameBit frame1 n) ∧ x.idx[x.ms]? = some 5) ∧
    (Inv (beforeLastBitSearching frame1) ∧ ∃ x, FrameComplete (beforeLastBitSearching frame1) 0 x ∧
      (∀ n, n < 96 → lineBit x x.ms true n = frameBit frame1 n) ∧ x.idx[x.ms]? = some 5) ∧
    StaticFields frame1 ∧ IsCodeword (beforeLastBit frame1).cfg.order (unpackFrame frame1) ∧
      messageCrc frame1 = frame1[11] :=
  ⟨⟨inv (by decide +kernel), clean_of (complete_known _ rfl (by decide +kernel))⟩,
    ⟨inv (by decide +kernel), clean_of (complete_found _ rfl (by decide +kernel))⟩, frame1_static, frame1_is_codeword,
    by decide +kernel⟩

theorem tiny_quiet : Quiet (State.resetWith tiny) where
  samples := by
    intro p v h
    have hm : v ∈ List.replicate tiny.len (0 : Sample) := List.mem_of_getElem? h
    obtain rfl := List.eq_of_mem_replicate hm
    decide
  flags := by
    intro p h
    have hm : true ∈ List.replicate tiny.len false := List.mem_of_getElem? h
    exact absurd (List.eq_of_mem_replicate hm) (by decide)
  searching := rfl

/-- The greatest in-band sample. -/
theorem witness_NoiseNeverFiresAnEvent :
    Inv (State.resetWith tiny) ∧ Quiet (State.resetWith tiny) ∧ ¬ OutOfBand tiny 15000 ∧ OutOfBand tiny 15001 :=
  ⟨tiny_reset_inv, tiny_quiet, by decide, by decide⟩

/-- L = 95·SPB + 1 and MS = L - 95·SPB. -/
theorem witness_PushNeverFillsAWideWindow :
    let s := { State.resetWith { tiny with len := 96 } with ms := 1 }
    Inv s ∧ 95 * s.cfg.spb + 1 ≤ s.cfg.len ∧ s.cfg.len - 95 * s.cfg.spb ≤ s.ms :=
  ⟨inv (by decide +kernel), by decide, by decide⟩

/-- L = 95·SPB, MS = 0 and MS = L. -/
theorem witness_PushIsStuckInANarrowWindow :
    let s := { State.resetWith { tiny with len := 95 } with ms := 0, awaitingSync := false }
    (Inv s ∧ s.cfg.len ≤ 95 * s.cfg.spb ∧ s.awaitingSync = false) ∧ Inv { s with ms := 95 } :=
  ⟨⟨inv (by decide +kernel), by decide, rfl⟩, inv (by decide +kernel)⟩

theorem witness_FieldTablesAreAsConstructed : (9 : Sym) ≠ 0 := by decide

end Sys2Proof.Tests
end

/-! The statements of spec/00_scope.md. What every command and every step have in common: each ends through `commit`. -/

namespace Sys2Proof.Machine

/-! ## Every command and every step ends through `commit` -/

/-- No command answers but through the shared end of a command: the one place where the arms of `exec` are opened. -/
theorem exec_eq_commit (i : Instr) (s : State) : ∃ r, exec i s = commit s r := by
  cases i
  all_goals
    simp only [exec, execNop, execInit, execRsenc, execRsdec, execWrcw, execRdcw, execCrcclr, execCrcupd, execCrcget,
      execCrcfr, execBufpush, execCorr, execRdbuf, execRdst, execLookup, execRdbyte, execExtract, execValidate,
      execUnpack, execRepack, execCrcfix, execDescr, execFields, execWrfr, execRdfr, execPush]
    exact ⟨_, rfl⟩

/-- No step answers but through `commit`, from a state that differs at most in the input taken from the port. -/
theorem step_eq_commit (s : State) : ∃ rest r, step s = commit (s.setPort rest) r := by
  unfold step
  split
  next => exact ⟨s.port, some s, rfl⟩
  next rest _ => exact ⟨rest, _, rfl⟩
  next w rest _ =>
    refine ⟨rest, ?_⟩
    split
    next i _ => exact exec_eq_commit i (s.setPort rest)
    next => exact ⟨_, rfl⟩

/-! ## Illegal configurations -/

theorem configLegal_eq_false_iff (c : Config) : configLegal c = false ↔ ¬ LegalConfig c := by
  rw [← configLegal_iff, Bool.not_eq_true]

theorem exec_refused_of_illegal (i : Instr) {s : State} (h : configLegal s.cfg = false) :
    exec i s = .refused .illegalConfiguration := by
  obtain ⟨r, hr⟩ := exec_eq_commit i s
  rw [hr, commit_illegal r h]

theorem step_refused_of_illegal {s : State} (h : configLegal s.cfg = false) :
    step s = .refused .illegalConfiguration := by
  obtain ⟨rest, r, hr⟩ := step_eq_commit s
  have hport : configLegal (s.setPort rest).cfg = false := h
  rw [hr, commit_illegal r hport]

/-- Settles O9: every command and every step ends through `commit`, which looks at the configuration first. -/
theorem illegalConfigurationIsRefused : Obligations.IllegalConfigurationIsRefused := by
  intro s hs
  have h : configLegal s.cfg = false := (configLegal_eq_false_iff s.cfg).2 hs
  exact ⟨fun i => exec_refused_of_illegal i h, step_refused_of_illegal h⟩

end Sys2Proof.Machine

/-! The statements of spec/10_state.md. Everything a command or a step does to the window (SMP, FLG, IDX, MS), the
configuration and the port is a chain of a few elementary actions, so an invariant of these is kept by every command and every
step as soon as each action keeps it. -/

namespace Sys2Proof.Machine

/-! ## What the shared operations write, in any state -/

theorem commit_some_eq_next {s t u : State} (h : commit s (some u) = .next t) : t = u :=
  (Option.some.inj (commit_next h).2).symm

/-- EXTRACT writes FR alone. -/
theorem extract_eq_some {s t : State} {start : Nat} {bit : Bool} (h : s.extract start = some (some (t, bit))) :
    ∃ f, t = s.setFr f := by
  unfold State.extract at h
  split at h
  · simp at h
  · obtain ⟨⟨f, b⟩, -, hr⟩ := Option.map_eq_some_iff.1 h
    simp only [Option.some.injEq, Prod.mk.injEq] at hr
    exact ⟨f, hr.1.symm⟩

/-- CORR writes the one flag at L - 1 - 15·SPB. -/
theorem corr_eq_some {s t : State} {m : Bool} (h : s.corr = some (t, m)) :
    t = s.setFlg (s.flg.set (tapPosition s.cfg 15) m) := by
  unfold State.corr at h
  split at h
  next m' _ =>
    split at h
    next u hu =>
      simp only [Option.some.injEq, Prod.mk.injEq] at h
      obtain ⟨rfl, rfl⟩ := h
      exact (writeFlg_eq_some hu).2
    next => cases h
  next => cases h

/-- LOOKUP writes MS alone. -/
theorem lookup_eq_setMs {s t : State} {r : Option Nat} (h : s.lookup = some (t, r)) : t = s.setMs t.ms := by
  rcases lookup_cases h with ⟨-, rfl, -⟩ | ⟨p, -, ⟨-, rfl, -⟩ | ⟨-, rfl, -⟩⟩ <;> rfl

/-! ## The elementary actions on the window -/

/-- `t` has the configuration, the port, the three window arrays and MS of `s`. -/
structure SameWindow (s t : State) : Prop where
  cfg : t.cfg = s.cfg
  port : t.port = s.port
  smp : t.smp = s.smp
  flg : t.flg = s.flg
  idx : t.idx = s.idx
  ms : t.ms = s.ms

namespace SameWindow

theorem refl (s : State) : SameWindow s s := ⟨rfl, rfl, rfl, rfl, rfl, rfl⟩

variable {s t : State} (h : SameWindow s t)
include h

theorem setAwaitingSync (b : Bool) : SameWindow s (t.setAwaitingSync b) := ⟨h.cfg, h.port, h.smp, h.flg, h.idx, h.ms⟩

theorem setFr (f : Frame) : SameWindow s (t.setFr f) := ⟨h.cfg, h.port, h.smp, h.flg, h.idx, h.ms⟩

theorem setCw (c : Codeword) : SameWindow s (t.setCw c) := ⟨h.cfg, h.port, h.smp, h.flg, h.idx, h.ms⟩

theorem setCrc (v : Byte) : SameWindow s (t.setCrc v) := ⟨h.cfg, h.port, h.smp, h.flg, h.idx, h.ms⟩

theorem replyWith (st : Status) (d : Data) (es : List Event) : SameWindow s (t.replyWith st d es) :=
  ⟨h.cfg, h.port, h.smp, h.flg, h.idx, h.ms⟩

theorem reply (st : Status) (d : Data) : SameWindow s (t.reply st d) := h.replyWith st d []

end SameWindow

/-- One action on the window (spec/20_memory.md R51). `frame` is what PUSH does with a frame that is complete in FR. -/
inductive WindowAction (s : State) : State → Prop where
  | keep {t : State} (h : SameWindow s t) : WindowAction s t
  | reset : WindowAction s s.resetCore
  | bufpush (v : Sample) : WindowAction s (s.bufpush v)
  | corr {t : State} {m : Bool} (h : s.corr = some (t, m)) : WindowAction s t
  | lookup {t : State} {r : Option Nat} (h : s.lookup = some (t, r)) : WindowAction s t
  | frame (first : Word) (h : frameReady s = true) : WindowAction s (processFrame first s).1

/-- `t` comes from `s` by a chain of such actions. -/
abbrev WindowActions : State → State → Prop := Relation.ReflTransGen WindowAction

namespace WindowActions

theorem of_same {s t : State} (h : SameWindow s t) : WindowActions s t := .single (.keep h)

theorem reply {s t : State} (h : WindowActions s t) (st : Status) (d : Data) : WindowActions s (t.reply st d) :=
  h.tail (.keep ((SameWindow.refl t).reply st d))

/-- A property that each action keeps is kept by a chain of them. -/
theorem keep {P : State → Prop} (hP : ∀ {s t : State}, P s → WindowAction s t → P t) {s t : State}
    (h : WindowActions s t) (hs : P s) : P t := by
  induction h with
  | refl => exact hs
  | tail _ ha ih => exact hP ih ha

end WindowActions

/-! ## Every command is a chain of actions -/

/-- The commands that write the window (spec/20_memory.md R51; spec/10_state.md R21 to R24). -/
def writesWindow : Instr → Bool
  | .init | .bufpush _ | .corr | .lookup | .push _ => true
  | _ => false

theorem crcfix_sameWindow (s : State) : SameWindow s s.crcfix.1 := by
  rcases crcfix_cases s with ⟨-, h⟩ | ⟨-, -, h⟩ | ⟨-, -, h⟩ <;> rw [h]
  · exact (SameWindow.refl s).setCrc _
  · exact ((SameWindow.refl s).setCrc _).setFr _
  · exact (SameWindow.refl s).setCrc _

/-- Every other command leaves the window, the configuration and the port as they are. -/
theorem exec_sameWindow {i : Instr} {s t : State} (hi : writesWindow i = false) (h : exec i s = .next t) :
    SameWindow s t := by
  have hs := SameWindow.refl s
  cases i with
  | init | bufpush | corr | lookup | push => cases hi
  | nop | crcget | rdst | validate | fields =>
    obtain rfl := commit_some_eq_next h
    exact hs.reply _ _
  | rsenc | unpack =>
    obtain rfl := commit_some_eq_next h
    exact (hs.setCw _).reply _ _
  | crcclr | crcupd | crcfr =>
    obtain rfl := commit_some_eq_next h
    exact (hs.setCrc _).reply _ _
  | repack | descr =>
    obtain rfl := commit_some_eq_next h
    exact (hs.setFr _).reply _ _
  | rsdec =>
    obtain rfl := commit_some_eq_next h
    split
    next u hu =>
      obtain ⟨cw, -, rfl⟩ := rsdec_some hu
      exact (hs.setCw cw).reply _ _
    next => exact hs.reply _ _
  | crcfix =>
    obtain rfl := commit_some_eq_next h
    have hfix := crcfix_sameWindow s
    split
    next u b hu => rw [hu] at hfix; exact hfix.reply _ _
    next u hu => rw [hu] at hfix; exact hfix.reply _ _
  | wrcw k imm =>
    obtain rfl := commit_some_eq_next h
    split
    · exact (hs.setCw _).reply _ _
    · exact hs.reply _ _
  | wrfr j imm =>
    obtain rfl := commit_some_eq_next h
    split
    · exact (hs.setFr _).reply _ _
    · exact hs.reply _ _
  | rdcw k | rdfr k =>
    obtain rfl := commit_some_eq_next h
    split <;> exact hs.reply _ _
  | rdbuf sel pos =>
    obtain ⟨-, hr⟩ := commit_next h
    split at hr
    · obtain ⟨d, -, rfl⟩ := Option.map_eq_some_iff.1 hr
      exact hs.reply _ _
    · obtain rfl := Option.some.inj hr
      exact hs.reply _ _
  | rdbyte b pos =>
    obtain ⟨_ | r, -, rfl⟩ := Option.map_eq_some_iff.1 (commit_next h).2 <;> exact hs.reply _ _
  | extract pos =>
    obtain ⟨_ | ⟨u, bit⟩, he, rfl⟩ := Option.map_eq_some_iff.1 (commit_next h).2
    · exact hs.reply _ _
    · obtain ⟨f, rfl⟩ := extract_eq_some he
      exact (hs.setFr f).reply _ _

theorem searchSync_windowActions {s t : State} (h : searchSync s = some t) : WindowActions s t := by
  rcases searchSync_cases h with ⟨-, rfl⟩ | ⟨u, p, -, hl, rfl⟩ | ⟨-, hl⟩
  · exact .refl
  · exact .tail (.single (.lookup hl)) (.keep ((SameWindow.refl u).setAwaitingSync false))
  · exact .single (.lookup hl)

theorem takeFrame_windowActions {s : State} {r : State × List Event} (h : takeFrame s = some r) :
    WindowActions s r.1 := by
  unfold takeFrame at h
  split at h
  next hready =>
    split at h
    next t bit he =>
      obtain ⟨f, rfl⟩ := extract_eq_some he
      split at h
      next first _ =>
        obtain rfl := Option.some.inj h
        exact .tail (WindowActions.of_same ((SameWindow.refl s).setFr f)) (.frame first hready)
      next => cases h
    next => obtain rfl := Option.some.inj h; exact .refl
    next => cases h
  next => obtain rfl := Option.some.inj h; exact .refl

/-- PUSH is the chain of its stages (spec/46_pipeline.md R231), whatever the state. -/
theorem push_windowActions {s : State} {v : Sample} {r : State × List Event} (h : s.push v = some r) :
    WindowActions s r.1 := by
  unfold State.push at h
  split at h
  next => cases h
  next t m hc =>
    split at h
    next => cases h
    next u hu =>
      have happend : WindowActions s t := .tail (.single (.bufpush v)) (.corr hc)
      exact (happend.trans (searchSync_windowActions hu)).trans (takeFrame_windowActions h)

/-- All that a command does to the window, the configuration and the port. -/
theorem exec_windowActions {i : Instr} {s t : State} (h : exec i s = .next t) : WindowActions s t := by
  cases hw : writesWindow i with
  | false => exact .of_same (exec_sameWindow hw h)
  | true =>
    cases i with
    | init =>
      obtain rfl := commit_some_eq_next h
      exact .reply (.single .reset) _ _
    | bufpush v =>
      obtain rfl := commit_some_eq_next h
      exact .reply (.single (.bufpush v)) _ _
    | corr =>
      obtain ⟨⟨u, m⟩, hc, rfl⟩ := Option.map_eq_some_iff.1 (commit_next h).2
      exact .reply (.single (.corr hc)) _ _
    | lookup =>
      obtain ⟨⟨u, _ | p⟩, hl, rfl⟩ := Option.map_eq_some_iff.1 (commit_next h).2 <;>
        exact .reply (.single (.lookup hl)) _ _
    | push v =>
      obtain ⟨r, hp, rfl⟩ := Option.map_eq_some_iff.1 (commit_next h).2
      exact (push_windowActions hp).tail (.keep ((SameWindow.refl r.1).replyWith _ _ _))
    | _ => cases hw

/-- A step takes at most one input from the port, and is then a chain of actions. -/
theorem step_windowActions {s t : State} (h : step s = .next t) : ∃ rest, WindowActions (s.setPort rest) t := by
  unfold step at h
  split at h
  next =>
    obtain rfl := commit_some_eq_next h
    exact ⟨t.port, .refl⟩
  next rest _ =>
    obtain rfl := commit_some_eq_next h
    exact ⟨rest, .tail (.single .reset) (.keep ⟨rfl, rfl, rfl, rfl, rfl, rfl⟩)⟩
  next w rest _ =>
    refine ⟨rest, ?_⟩
    split at h
    next i _ => exact exec_windowActions h
    next =>
      obtain rfl := commit_some_eq_next h
      exact .of_same ((SameWindow.refl _).reply _ _)

/-- The induction for the whole machine: what every action keeps, and taking an input keeps, every step keeps. -/
theorem step_keeps {P : State → Prop} (hport : ∀ {s : State} (rest : List HostInput), P s → P (s.setPort rest))
    (hP : ∀ {s t : State}, P s → WindowAction s t → P t) {s t : State} (hs : P s) (h : step s = .next t) : P t := by
  obtain ⟨rest, ha⟩ := step_windowActions h
  exact ha.keep hP (hport rest hs)

/-! ## The configuration is read-only (spec/10_state.md R30) -/

theorem WindowAction.cfg_port {s t : State} (h : WindowAction s t) : t.cfg = s.cfg ∧ t.port = s.port := by
  cases h with
  | keep h => exact ⟨h.cfg, h.port⟩
  | reset => exact ⟨rfl, rfl⟩
  | bufpush v => exact ⟨rfl, rfl⟩
  | corr h => obtain rfl := corr_eq_some h; exact ⟨rfl, rfl⟩
  | lookup h => rw [lookup_eq_setMs h]; exact ⟨rfl, rfl⟩
  | frame first _ => rw [processFrame_frame]; exact ⟨rfl, rfl⟩

theorem exec_cfg_port {i : Instr} {s t : State} (h : exec i s = .next t) : t.cfg = s.cfg ∧ t.port = s.port :=
  (exec_windowActions h).keep (P := fun u => u.cfg = s.cfg ∧ u.port = s.port)
    (fun ⟨hc, hp⟩ ha => ⟨ha.cfg_port.1.trans hc, ha.cfg_port.2.trans hp⟩) ⟨rfl, rfl⟩

theorem step_cfg {s t : State} (h : step s = .next t) : t.cfg = s.cfg :=
  step_keeps (P := fun u => u.cfg = s.cfg) (fun _ hc => hc) (fun hc ha => ha.cfg_port.1.trans hc) rfl h

/-- Settles O17: no action on the window writes the configuration or the port. -/
theorem configurationIsReadOnly : Obligations.ConfigurationIsReadOnly :=
  ⟨fun _ _ _ h => exec_cfg_port h, fun _ _ h => step_cfg h⟩

/-! ## The window's form (spec/10_state.md R24) -/

theorem Inv.of_sameWindow {s t : State} (hs : Inv s) (h : SameWindow s t) : Inv t where
  config := h.cfg ▸ hs.config
  window := by simpa only [Memory.wf, h.cfg, h.smp, h.flg, h.idx] using hs.window
  ms_le := by simpa only [h.cfg, h.ms] using hs.ms_le

theorem Inv.setPort {s : State} (hs : Inv s) (rest : List HostInput) : Inv (s.setPort rest) :=
  ⟨hs.config, hs.window, hs.ms_le⟩

theorem resetCore_inv {s : State} (hs : Inv s) : Inv s.resetCore :=
  ⟨hs.config, resetCore_wf s, Nat.le_refl _⟩

/-- A complete frame ends below L, so MS one further is still in the window; MS past the frame is bounded by L itself. -/
theorem processFrame_inv {s : State} (hs : Inv s) (hready : frameReady s = true) (first : Word) :
    Inv (processFrame first s).1 := by
  have hms : (processFrame first s).1.ms ≤ s.cfg.len := by
    have hfit : s.ms + 95 * s.cfg.spb ≤ s.cfg.len - 1 := by
      simp only [frameReady, Bool.and_eq_true, decide_eq_true_eq] at hready
      exact hready.2
    have hlen := hs.config.len_ge
    rcases processFrame_ms first s with h | h <;> omega
  rw [processFrame_frame]
  exact ⟨hs.config, hs.window, hms⟩

theorem WindowAction.inv {s t : State} (hs : Inv s) (h : WindowAction s t) : Inv t := by
  cases h with
  | keep h => exact hs.of_sameWindow h
  | reset => exact resetCore_inv hs
  | bufpush v => exact bufpush_inv hs v
  | corr h => exact corr_inv hs h
  | lookup h => exact lookup_inv hs h
  | frame first hready => exact processFrame_inv hs hready first

/-- Settles O12: each action on the window keeps its form. -/
theorem stepKeepsTheWindowWellFormed : Obligations.StepKeepsTheWindowWellFormed :=
  fun _ _ hs h => step_keeps (fun rest hi => hi.setPort rest) WindowAction.inv hs h

/-! ## No flag above L - 1 - 15·SPB (spec/10_state.md R38) -/

theorem FlagsLow.of_flg_eq {s t : State} (hs : FlagsLow s) (hcfg : t.cfg = s.cfg) (hflg : t.flg = s.flg) :
    FlagsLow t := by
  simpa only [FlagsLow, hcfg, hflg] using hs

theorem getElem?_replicate_false_ne_true (n p : Nat) : (List.replicate n false)[p]? ≠ some true := by
  simp [List.getElem?_replicate]

/-- An append puts a false flag at L - 1 and moves the others down, never up. -/
theorem bufpush_flagsLow {s : State} (hs : Inv s) (hlow : FlagsLow s) (v : Sample) : FlagsLow (s.bufpush v) := by
  intro p hp
  have hlen := hs.config.len_ge
  obtain ⟨-, hflg, -⟩ := hs.window
  rw [State.bufpush_flg, shiftIn_getElem? (hflg ▸ hs.ms_le) (by omega)]
  split
  · simp
  split
  · exact hlow p hp
  · exact hlow (p + 1) (Nat.lt_succ_of_lt hp)

/-- CORR writes at L - 1 - 15·SPB and so not above it. -/
theorem corr_flagsLow {s t : State} {m : Bool} (hlow : FlagsLow s) (h : s.corr = some (t, m)) : FlagsLow t := by
  obtain rfl := corr_eq_some h
  intro p hp
  have hne : tapPosition s.cfg 15 ≠ p := Nat.ne_of_lt hp
  rw [State.setFlg_flg, List.getElem?_set_ne hne]
  exact hlow p hp

theorem WindowAction.flagsLow {s t : State} (hs : Inv s) (hlow : FlagsLow s) (h : WindowAction s t) : FlagsLow t := by
  cases h with
  | keep h => exact hlow.of_flg_eq h.cfg h.flg
  | reset => exact fun p _ => getElem?_replicate_false_ne_true s.cfg.len p
  | bufpush v => exact bufpush_flagsLow hs hlow v
  | corr h => exact corr_flagsLow hlow h
  | lookup h => rw [lookup_eq_setMs h]; exact hlow
  | frame first _ => rw [processFrame_frame]; exact hlow

/-- Settles O13: each action on a well-formed window leaves the flags above L - 1 - 15·SPB false. -/
theorem stepKeepsHighFlagsFalse : Obligations.StepKeepsHighFlagsFalse := by
  intro s t hs hlow h
  have hkept : Inv t ∧ FlagsLow t :=
    step_keeps (P := fun u => Inv u ∧ FlagsLow u)
      (fun rest ⟨hi, hl⟩ => ⟨hi.setPort rest, hl⟩)
      (fun ⟨hi, hl⟩ ha => ⟨ha.inv hi, ha.flagsLow hi hl⟩) ⟨hs, hlow⟩ h
  exact hkept.2

/-! ## Reset (spec/10_state.md R42) -/

theorem getElem?_toList_replicate {α : Type} {n i : Nat} (h : i < n) (x : α) :
    (Vector.replicate n x).toList[i]? = some x := by
  rw [Vector.toList_replicate, List.getElem?_replicate_of_lt h]

/-- Settles O10: every array is a replicated value, every scalar stands as listed. -/
theorem resetValuesAreAsListed : Obligations.ResetValuesAreAsListed := by
  intro c s
  have harrays : ∀ p, p < c.len → s.smp[p]? = some 0 ∧ s.flg[p]? = some false ∧ s.idx[p]? = some 0 := fun p hp =>
    ⟨List.getElem?_replicate_of_lt hp, List.getElem?_replicate_of_lt hp, List.getElem?_replicate_of_lt hp⟩
  have hfr : ∀ i, i < 12 → s.fr.toList[i]? = some 0x00 := fun i hi => getElem?_toList_replicate hi 0x00
  have hcw : ∀ k, k < 15 → s.cw.toList[k]? = some 0x0 := fun k hk => getElem?_toList_replicate hk 0x0
  exact ⟨rfl, rfl, rfl, rfl, rfl, harrays, hfr, hcw, rfl, rfl, rfl⟩

theorem resetWith_inv {c : Config} (h : LegalConfig c) : Inv (State.resetWith c) :=
  ⟨h, resetWith_wf c, Nat.le_refl _⟩

/-- The reset state has no flag at all. -/
theorem resetWith_flg_ne_true (c : Config) (p : Nat) : (State.resetWith c).flg[p]? ≠ some true :=
  getElem?_replicate_false_ne_true c.len p

/-- Settles O11: both flag invariants hold because no flag is set. -/
theorem resetMeetsTheInvariants : Obligations.ResetMeetsTheInvariants := fun c h =>
  ⟨resetWith_inv h, fun p _ => resetWith_flg_ne_true c p, fun p _ _ hp => absurd hp (resetWith_flg_ne_true c p)⟩

end Sys2Proof.Machine

/-! The statements of spec/20_memory.md. The flag invariant goes through the actions on the window, as those of
spec/10_state.md do. What a command other than INIT and PUSH can write is said once, command by command, for the statements
about who writes what. -/

namespace Sys2Proof.Machine

/-! ## Every live flag marks a sync word (spec/20_memory.md R65) -/

theorem SyncAt.of_smp_eq {s t : State} {p : Nat} (h : SyncAt s p) (hcfg : t.cfg = s.cfg) (hsmp : t.smp = s.smp) :
    SyncAt t p := by
  simpa only [SyncAt, hcfg, hsmp] using h

/-- With the samples and the flags as they were, fewer live positions ask for less. -/
theorem FlagSound.of_ms_le {s t : State} (hs : FlagSound s) (hcfg : t.cfg = s.cfg) (hsmp : t.smp = s.smp)
    (hflg : t.flg = s.flg) (hms : s.ms ≤ t.ms) : FlagSound t := by
  intro p hp htop hflag
  rw [hcfg] at htop
  rw [hflg] at hflag
  exact (hs p (hms.trans hp) htop hflag).of_smp_eq hcfg hsmp

/-- An append moves the live samples one position down. -/
theorem bufpush_smp_live {s : State} (hs : Inv s) {v w : Sample} {p : Nat} (hp : s.ms ≤ p + 1)
    (hw : s.smp[p + 1]? = some w) : (s.bufpush v).smp[p]? = some w := by
  have hlen := hs.config.len_ge
  obtain ⟨hsmp, -, -⟩ := hs.window
  have hlt : p + 1 < s.smp.length := (List.getElem?_eq_some_iff.1 hw).1
  rw [State.bufpush_smp, shiftIn_getElem? (hsmp ▸ hs.ms_le) (by omega), if_neg (by omega), if_neg (by omega), hw]

/-- The sixteen samples of a live mark move down together. -/
theorem bufpush_syncAt {s : State} (hs : Inv s) (v : Sample) {p : Nat} (hp : s.ms ≤ p + 1) (h : SyncAt s (p + 1)) :
    SyncAt (s.bufpush v) p := by
  intro k hk
  obtain ⟨w, hw, hband, hsign⟩ := h k hk
  rw [Nat.add_right_comm] at hw
  exact ⟨w, bufpush_smp_live hs (by omega) hw, hband, hsign⟩

/-- A flag that is live and true after an append was so one position further up before it: nothing stays in place at or
above the new MS, and the new flag is false. -/
theorem bufpush_flg_live {s : State} (hs : Inv s) {v : Sample} {p : Nat} (hp : s.ms ≤ p + 1)
    (h : (s.bufpush v).flg[p]? = some true) : s.flg[p + 1]? = some true := by
  have hlen := hs.config.len_ge
  obtain ⟨-, hflg, -⟩ := hs.window
  rw [State.bufpush_flg, shiftIn_getElem? (hflg ▸ hs.ms_le) (by omega)] at h
  split at h
  · simp at h
  · rwa [if_neg (by omega)] at h

theorem bufpush_flagSound {s : State} (hs : Inv s) (hlow : FlagsLow s) (hsound : FlagSound s) (v : Sample) :
    FlagSound (s.bufpush v) := by
  intro p hp _ hflag
  rw [State.bufpush_ms] at hp
  have hlive : s.ms ≤ p + 1 := by omega
  have hold : s.flg[p + 1]? = some true := bufpush_flg_live hs hlive hflag
  have htop : p + 1 ≤ s.cfg.len - 1 - 15 * s.cfg.spb := Nat.le_of_not_lt fun hgt => hlow (p + 1) hgt hold
  exact bufpush_syncAt hs v hlive (hsound (p + 1) hlive htop hold)

/-- Sixteen matching taps are a sync word from tap 15 on: sample k of the word is tap 15 - k of the correlator. -/
theorem syncAt_of_taps {s : State} (hs : Inv s)
    (h : ∀ k, k < 16 → ∃ v, s.smp[tapPosition s.cfg k]? = some v ∧ tapMatches s.cfg k v = true) :
    SyncAt s (tapPosition s.cfg 15) := by
  intro k hk
  obtain ⟨v, hv, htap⟩ := h (15 - k) (by omega)
  obtain ⟨hband, hsign⟩ := (tapMatches_iff (by omega)).1 htap
  have hpos : tapPosition s.cfg (15 - k) = tapPosition s.cfg 15 + k * s.cfg.spb := by
    have hfit := hs.config.taps_fit
    have hsplit : (15 - k) * s.cfg.spb + k * s.cfg.spb = 15 * s.cfg.spb := by
      rw [← Nat.add_mul, Nat.sub_add_cancel (by omega)]
    simp only [tapPosition]
    omega
  exact ⟨v, hpos ▸ hv, hband, hsign.trans (by omega)⟩

/-- CORR sets its flag only on a match, and leaves the other flags. -/
theorem corr_flagSound {s t : State} {m : Bool} (hs : Inv s) (hsound : FlagSound s) (h : s.corr = some (t, m)) :
    FlagSound t := by
  obtain ⟨m', hcorr, hmatch⟩ := corr_spec hs
  rw [hcorr] at h
  obtain ⟨rfl, rfl⟩ := Prod.mk.inj (Option.some.inj h)
  intro p hp htop hflag
  rw [State.setFlg_flg] at hflag
  by_cases hpos : tapPosition s.cfg 15 = p
  · subst hpos
    rw [List.getElem?_set_self (by rw [hs.window.2.1]; exact tapPosition_lt hs 15)] at hflag
    exact (syncAt_of_taps hs (hmatch.1 (Option.some.inj hflag))).of_smp_eq rfl rfl
  · rw [List.getElem?_set_ne hpos] at hflag
    exact (hsound p hp htop hflag).of_smp_eq rfl rfl

/-- A LOOKUP that finds no flag may move MS down, but only to L - 15·SPB, above every position that can hold a flag. -/
theorem lookup_flagSound {s t : State} {r : Option Nat} (hs : Inv s) (hsound : FlagSound s)
    (h : s.lookup = some (t, r)) : FlagSound t := by
  rcases lookup_cases h with ⟨-, rfl, -⟩ | ⟨p, hp, hres⟩
  · intro q hq htop
    have hfit := hs.config.taps_fit
    have hlen := hs.config.len_ge
    simp only [State.setMs_ms, State.setMs_cfg] at hq htop
    omega
  · have hms : s.ms ≤ p := (firstFlag_some hp).1
    rcases hres with ⟨-, rfl, -⟩ | ⟨-, rfl, -⟩
    · exact hsound.of_ms_le rfl rfl rfl hms
    · exact hsound.of_ms_le rfl rfl rfl (Nat.le_add_right_of_le hms)

/-- A frame moves MS up. -/
theorem processFrame_flagSound {s : State} (hs : Inv s) (hsound : FlagSound s) (first : Word) :
    FlagSound (processFrame first s).1 := by
  have hms : s.ms ≤ (processFrame first s).1.ms := by
    have hle := hs.ms_le
    rcases processFrame_ms first s with h | h <;> omega
  rw [processFrame_frame]
  exact hsound.of_ms_le rfl rfl rfl hms

theorem WindowAction.flagSound {s t : State} (hs : Inv s) (hlow : FlagsLow s) (hsound : FlagSound s)
    (h : WindowAction s t) : FlagSound t := by
  cases h with
  | keep h => exact hsound.of_ms_le h.cfg h.smp h.flg h.ms.ge
  | reset => exact fun p _ _ hp => absurd hp (getElem?_replicate_false_ne_true s.cfg.len p)
  | bufpush v => exact bufpush_flagSound hs hlow hsound v
  | corr h => exact corr_flagSound hs hsound h
  | lookup h => exact lookup_flagSound hs hsound h
  | frame first _ => exact processFrame_flagSound hs hsound first

/-- Settles O14: each action on a well-formed window keeps the true flags at live positions marks of sync words, given that
none stands above L - 1 - 15·SPB. -/
theorem stepKeepsFlagsSound : Obligations.StepKeepsFlagsSound := by
  intro s t hs hlow hsound h
  have hkept : Inv t ∧ FlagsLow t ∧ FlagSound t :=
    step_keeps (P := fun u => Inv u ∧ FlagsLow u ∧ FlagSound u)
      (fun rest ⟨hi, hl, hf⟩ => ⟨hi.setPort rest, hl, hf⟩)
      (fun ⟨hi, hl, hf⟩ ha => ⟨ha.inv hi, ha.flagsLow hi hl, ha.flagSound hi hl hf⟩) ⟨hs, hlow, hsound⟩ h
  exact hkept.2.2

/-! ## No access leaves the window (spec/20_memory.md R56) -/

/-- RDBUF's element exists at every position of the window, in each of the three arrays. -/
theorem windowData_total {s : State} (hw : Memory.wf s) (sel : WindowArray) {p : Nat} (hp : p < s.cfg.len) :
    ∃ d, windowData s sel p = some d := by
  obtain ⟨⟨v, hv⟩, ⟨b, hb⟩, ⟨n, hn⟩⟩ := hw.read hp
  cases sel with
  | smp => exact ⟨zext v, by rw [windowData, hv]; rfl⟩
  | flg => exact ⟨boolData b, by rw [windowData, hb]; rfl⟩
  | idx => exact ⟨zext n, by rw [windowData, hn]; rfl⟩

/-- The byte reader checks its last sample before it reads the first. -/
theorem readByte_total {s : State} (hs : Inv s) (start : Nat) (bit : Bool) : ∃ r, readByte s start bit = some r := by
  by_cases h : s.cfg.len - 1 < start + 7 * s.cfg.spb
  · exact ⟨none, readByte_fail h⟩
  · have hlen := hs.config.len_ge
    have hlast : start + 7 * s.cfg.spb < s.cfg.len := by omega
    obtain ⟨byte, hb, -⟩ := readByte_spec hs.window (bit := bit) hlast
    exact ⟨_, hb⟩

theorem extract_total {s : State} (hs : Inv s) (start : Nat) : ∃ r, s.extract start = some r := by
  by_cases h : s.cfg.len - 1 < start + 95 * s.cfg.spb
  · exact ⟨none, extract_fail h⟩
  · obtain ⟨f, bit, -, he⟩ := extract_ok hs (Nat.le_of_not_lt h)
    exact ⟨_, he⟩

/-- A command whose window accesses all succeed ends in a next state. -/
theorem commit_map_total {α : Type} {s : State} (hs : Inv s) {r : Option α} (f : α → State) (h : ∃ a, r = some a) :
    ∃ t, commit s (r.map f) = .next t := by
  obtain ⟨a, rfl⟩ := h
  exact ⟨f a, commit_some hs.legal⟩

theorem exec_total {s : State} (hs : Inv s) (i : Instr) : ∃ t, exec i s = .next t := by
  cases i with
  | corr =>
    obtain ⟨m, hm, -⟩ := corr_spec hs
    exact commit_map_total hs _ ⟨_, hm⟩
  | lookup =>
    obtain ⟨t, r, hl⟩ := lookup_total hs
    exact commit_map_total hs _ ⟨_, hl⟩
  | push v =>
    obtain ⟨_, _, _, r, -, -, -, hp, -, -⟩ := push_spec hs v
    exact commit_map_total hs _ ⟨r, hp⟩
  | rdbuf sel pos =>
    by_cases hpos : positionOf pos < s.cfg.len
    · simp only [exec, execRdbuf, if_pos hpos]
      exact commit_map_total hs _ (windowData_total hs.window sel hpos)
    · simp only [exec, execRdbuf, if_neg hpos]
      exact ⟨_, commit_some hs.legal⟩
  | rdbyte b pos => exact commit_map_total hs _ (readByte_total hs (positionOf pos) b)
  | extract pos => exact commit_map_total hs _ (extract_total hs (positionOf pos))
  | _ => exact ⟨_, commit_some hs.legal⟩

theorem step_total {s : State} (hs : Inv s) : ∃ t, step s = .next t := by
  unfold step
  split
  next => exact ⟨s, commit_some hs.legal⟩
  next rest _ => exact ⟨_, commit_some (hs.setPort rest).legal⟩
  next w rest _ =>
    split
    next i _ => exact exec_total (hs.setPort rest) i
    next => exact ⟨_, commit_some (hs.setPort rest).legal⟩

/-- Settles O15: every access of a command is inside the window or behind a range check. -/
theorem noAccessLeavesTheWindow : Obligations.NoAccessLeavesTheWindow :=
  fun _ hs => ⟨exec_total hs, step_total hs⟩

/-! ## Who writes what (spec/20_memory.md R51) -/

/-- `UnitWrite s i u`: in `s` the command `i`, neither INIT nor PUSH, may leave `u` behind, apart from the response and the
event port. -/
inductive UnitWrite (s : State) : Instr → State → Prop where
  | unchanged (i : Instr) : UnitWrite s i s
  | bufpush (v : Sample) : UnitWrite s (.bufpush v) (s.bufpush v)
  | corr (flg : List Bool) : UnitWrite s .corr (s.setFlg flg)
  | lookup (p : Nat) : UnitWrite s .lookup (s.setMs p)
  | extract (pos : BitVec 16) (f : Frame) : UnitWrite s (.extract pos) (s.setFr f)
  | wrfr (j : BitVec 4) (imm : Byte) (f : Frame) : UnitWrite s (.wrfr j imm) (s.setFr f)
  | repack : UnitWrite s .repack s.repack
  | descr : UnitWrite s .descr s.descr
  | wrcw (k : BitVec 4) (imm : Sym) (c : Codeword) : UnitWrite s (.wrcw k imm) (s.setCw c)
  | unpack : UnitWrite s .unpack s.unpack
  | rsenc : UnitWrite s .rsenc s.rsenc
  | rsdec (c : Codeword) : UnitWrite s .rsdec (s.setCw c)
  | crcclr (v : Byte) : UnitWrite s .crcclr (s.setCrc v)
  | crcupd (imm v : Byte) : UnitWrite s (.crcupd imm) (s.setCrc v)
  | crcfr (v : Byte) : UnitWrite s .crcfr (s.setCrc v)
  | crcfix (v : Byte) (f : Frame) : UnitWrite s .crcfix ((s.setCrc v).setFr f)

theorem UnitWrite.of_crcfix (s : State) : UnitWrite s .crcfix s.crcfix.1 := by
  rw [crcfix_frame]
  exact .crcfix s.crcfix.1.crc s.crcfix.1.fr

/-- All that a command other than INIT and PUSH does: its one write, then the response, with no event. -/
theorem exec_unitWrite {i : Instr} {s t : State} (h : exec i s = .next t) (hpush : ∀ v, i ≠ .push v)
    (hinit : i ≠ .init) : ∃ u st d, UnitWrite s i u ∧ t = u.reply st d := by
  have hkeep : ∀ st d, ∃ u st' d', UnitWrite s i u ∧ s.reply st d = u.reply st' d' :=
    fun st d => ⟨s, st, d, .unchanged i, rfl⟩
  cases i with
  | init => exact absurd rfl hinit
  | push v => exact absurd rfl (hpush v)
  | nop | crcget | rdst | validate | fields =>
    obtain rfl := commit_some_eq_next h
    exact hkeep _ _
  | bufpush | repack | descr | unpack | rsenc | crcclr | crcupd | crcfr =>
    obtain rfl := commit_some_eq_next h
    exact ⟨_, _, _, by constructor, rfl⟩
  | rsdec =>
    obtain rfl := commit_some_eq_next h
    split
    next u hu =>
      obtain ⟨c, -, rfl⟩ := rsdec_some hu
      exact ⟨_, _, _, .rsdec c, rfl⟩
    next => exact hkeep _ _
  | crcfix =>
    obtain rfl := commit_some_eq_next h
    have hfix := UnitWrite.of_crcfix s
    split
    next u b hu => rw [hu] at hfix; exact ⟨_, _, _, hfix, rfl⟩
    next u hu => rw [hu] at hfix; exact ⟨_, _, _, hfix, rfl⟩
  | wrcw k imm =>
    obtain rfl := commit_some_eq_next h
    split
    · exact ⟨_, _, _, .wrcw k imm _, rfl⟩
    · exact hkeep _ _
  | wrfr j imm =>
    obtain rfl := commit_some_eq_next h
    split
    · exact ⟨_, _, _, .wrfr j imm _, rfl⟩
    · exact hkeep _ _
  | rdcw k | rdfr k =>
    obtain rfl := commit_some_eq_next h
    split <;> exact hkeep _ _
  | corr =>
    obtain ⟨⟨u, m⟩, hc, rfl⟩ := Option.map_eq_some_iff.1 (commit_next h).2
    obtain rfl := corr_eq_some hc
    exact ⟨_, _, _, .corr _, rfl⟩
  | lookup =>
    obtain ⟨⟨u, r⟩, hl, rfl⟩ := Option.map_eq_some_iff.1 (commit_next h).2
    have hu : UnitWrite s .lookup u := lookup_eq_setMs hl ▸ .lookup u.ms
    cases r <;> exact ⟨u, _, _, hu, rfl⟩
  | rdbuf sel pos =>
    obtain ⟨-, hr⟩ := commit_next h
    split at hr
    · obtain ⟨d, -, rfl⟩ := Option.map_eq_some_iff.1 hr
      exact hkeep _ _
    · obtain rfl := Option.some.inj hr
      exact hkeep _ _
  | rdbyte b pos =>
    obtain ⟨_ | r, -, rfl⟩ := Option.map_eq_some_iff.1 (commit_next h).2 <;> exact hkeep _ _
  | extract pos =>
    obtain ⟨_ | ⟨u, bit⟩, he, rfl⟩ := Option.map_eq_some_iff.1 (commit_next h).2
    · exact hkeep _ _
    · obtain ⟨f, rfl⟩ := extract_eq_some he
      exact ⟨_, _, _, .extract pos f, rfl⟩

namespace UnitWrite

variable {s u : State} {i : Instr} (h : UnitWrite s i u)
include h

theorem smp_idx_cnt_eq (hbuf : ∀ v, i ≠ .bufpush v) : u.smp = s.smp ∧ u.idx = s.idx ∧ u.cnt = s.cnt := by
  cases h with
  | bufpush v => exact absurd rfl (hbuf v)
  | _ => exact ⟨rfl, rfl, rfl⟩

theorem flg_eq (hbuf : ∀ v, i ≠ .bufpush v) (hcorr : i ≠ .corr) : u.flg = s.flg := by
  cases h with
  | bufpush v => exact absurd rfl (hbuf v)
  | corr => exact absurd rfl hcorr
  | _ => rfl

theorem ms_eq (hbuf : ∀ v, i ≠ .bufpush v) (hlookup : i ≠ .lookup) : u.ms = s.ms := by
  cases h with
  | bufpush v => exact absurd rfl (hbuf v)
  | lookup => exact absurd rfl hlookup
  | _ => rfl

theorem awaitingSync_eq : u.awaitingSync = s.awaitingSync := by
  cases h <;> rfl

theorem fr_eq (hextract : ∀ p, i ≠ .extract p) (hrepack : i ≠ .repack) (hcrcfix : i ≠ .crcfix) (hdescr : i ≠ .descr)
    (hwrfr : ∀ j b, i ≠ .wrfr j b) : u.fr = s.fr := by
  cases h with
  | extract p => exact absurd rfl (hextract p)
  | repack => exact absurd rfl hrepack
  | crcfix => exact absurd rfl hcrcfix
  | descr => exact absurd rfl hdescr
  | wrfr j b => exact absurd rfl (hwrfr j b)
  | _ => rfl

theorem cw_eq (hwrcw : ∀ k x, i ≠ .wrcw k x) (hunpack : i ≠ .unpack) (hrsenc : i ≠ .rsenc) (hrsdec : i ≠ .rsdec) :
    u.cw = s.cw := by
  cases h with
  | wrcw k x => exact absurd rfl (hwrcw k x)
  | unpack => exact absurd rfl hunpack
  | rsenc => exact absurd rfl hrsenc
  | rsdec => exact absurd rfl hrsdec
  | _ => rfl

theorem crc_eq (hcrcclr : i ≠ .crcclr) (hcrcupd : ∀ b, i ≠ .crcupd b) (hcrcfr : i ≠ .crcfr) (hcrcfix : i ≠ .crcfix) :
    u.crc = s.crc := by
  cases h with
  | crcclr => exact absurd rfl hcrcclr
  | crcupd b => exact absurd rfl (hcrcupd b)
  | crcfr => exact absurd rfl hcrcfr
  | crcfix => exact absurd rfl hcrcfix
  | _ => rfl

end UnitWrite

/-- Settles O16: each piece of state by its own law of `UnitWrite`; the response changes none of them. -/
theorem onlyTheListedCommandsWrite : Obligations.OnlyTheListedCommandsWrite := by
  intro i s t h hpush hinit
  obtain ⟨u, st, d, hu, rfl⟩ := exec_unitWrite h hpush hinit
  exact ⟨hu.smp_idx_cnt_eq, hu.flg_eq, hu.ms_eq, hu.awaitingSync_eq, hu.fr_eq, hu.cw_eq, hu.crc_eq⟩

/-! ## Reads have no side effects (spec/20_memory.md R58) -/

/-- Settles O19: of the writes none is a reading command's. -/
theorem readingCommandsChangeNoState : Obligations.ReadingCommandsChangeNoState := by
  intro i s t hread h
  have hpush : ∀ v, i ≠ .push v := by rintro v rfl; simp at hread
  have hinit : i ≠ .init := by rintro rfl; simp at hread
  obtain ⟨u, st, d, hu, rfl⟩ := exec_unitWrite h hpush hinit
  have hus : u = s := by
    rcases hread with ⟨a, p, rfl⟩ | ⟨a, rfl⟩ | ⟨k, rfl⟩ | ⟨j, rfl⟩ | rfl | ⟨b, p, rfl⟩ | rfl | rfl | rfl <;>
      cases hu <;> rfl
  exact ⟨⟨st, d⟩, hus ▸ rfl⟩

end Sys2Proof.Machine

/-! The statements of spec/30_encoding.md. What each combinator of the decoder accepts is said once, and the rows of the
opcode table are read as conditions on the three fields of a word. -/

namespace Sys2Proof

/-! ## A word and its fields -/

@[simp] theorem opField_encode (i : Instr) : opField (encode i) = i.opcode := opField_makeWord _ _ _

@[simp] theorem aField_encode (i : Instr) : aField (encode i) = i.aBits := aField_makeWord _ _ _

@[simp] theorem dField_encode (i : Instr) : dField (encode i) = i.dBits := dField_makeWord _ _ _

/-- Two words are equal when their three fields are. -/
theorem eq_makeWord_iff {w : Word} {op a : BitVec 8} {d : BitVec 16} :
    w = makeWord op a d ↔ opField w = op ∧ aField w = a ∧ dField w = d := by
  constructor
  · rintro rfl
    simp
  · rintro ⟨rfl, rfl, rfl⟩
    exact (makeWord_fields w).symm

/-- The low `m` bits of a value that fits in them are the whole value. -/
theorem zeroExtend_extractLsb'_of_lt {n m : Nat} {x : BitVec n} (h : x.toNat < 2 ^ m) :
    (x.extractLsb' 0 m).zeroExtend n = x := by
  apply BitVec.eq_of_toNat_eq
  simp [Nat.mod_eq_of_lt h]

theorem extractLsb'_zeroExtend {n m : Nat} (y : BitVec m) (h : m ≤ n) :
    (y.zeroExtend n).extractLsb' 0 m = y := by
  apply BitVec.eq_of_toNat_eq
  simp [Nat.mod_eq_of_lt (BitVec.toNat_lt_twoPow_of_le h)]

theorem lt_two_pow_iff_exists_zeroExtend {n k : Nat} {x : BitVec n} :
    x.toNat < 2 ^ k ↔ ∃ y : BitVec k, x = y.zeroExtend n := by
  constructor
  · exact fun h => ⟨_, (zeroExtend_extractLsb'_of_lt h).symm⟩
  · rintro ⟨y, rfl⟩
    exact Nat.lt_of_le_of_lt (by simpa using Nat.mod_le _ _) y.isLt

/-! ## The selectors (spec/30_encoding.md R82, R170, R171) -/

@[simp] theorem windowArrayOf_code (sel : WindowArray) : windowArrayOf sel.code = some sel := by
  cases sel <;> rfl

@[simp] theorem scalarOf_code (sel : Scalar) : scalarOf sel.code = some sel := by
  cases sel <;> rfl

@[simp] theorem bitOf_code (b : Bool) : bitOf (if b then 1 else 0) = some b := by
  cases b <;> rfl

theorem windowArrayOf_some {a : BitVec 8} {sel : WindowArray} (h : windowArrayOf a = some sel) : a = sel.code := by
  unfold windowArrayOf at h
  split at h <;> cases h <;> rfl

theorem scalarOf_some {a : BitVec 8} {sel : Scalar} (h : scalarOf a = some sel) : a = sel.code := by
  unfold scalarOf at h
  split at h <;> cases h <;> rfl

theorem bitOf_some {a : BitVec 8} {b : Bool} (h : bitOf a = some b) : a = if b then 1 else 0 := by
  unfold bitOf at h
  split at h <;> cases h <;> rfl

/-! ## Decode after encode -/

theorem indexOperand_zeroExtend {top : Nat} {w : Word} {k : BitVec 4} (ha : aField w = k.zeroExtend 8)
    (hk : k.toNat ≤ top) (f : BitVec 4 → Except Reject Instr) : indexOperand top w f = f k := by
  have hnat : (aField w).toNat = k.toNat := by rw [ha, BitVec.toNat_setWidth_of_le (by decide)]
  rw [indexOperand, hnat, if_pos hk, ha, extractLsb'_zeroExtend k (by decide)]

theorem byteOperand_zeroExtend (b : Byte) (f : Byte → Instr) : byteOperand (b.zeroExtend 16) f = .ok (f b) := by
  have hlt : (b.zeroExtend 16).toNat < 256 := lt_two_pow_iff_exists_zeroExtend.2 ⟨b, rfl⟩
  rw [byteOperand, if_pos hlt, extractLsb'_zeroExtend b (by decide)]

theorem symOperand_zeroExtend (x : Sym) (f : Sym → Instr) : symOperand (x.zeroExtend 16) f = .ok (f x) := by
  have hlt : (x.zeroExtend 16).toNat < 16 := lt_two_pow_iff_exists_zeroExtend.2 ⟨x, rfl⟩
  rw [symOperand, if_pos hlt, extractLsb'_zeroExtend x (by decide)]

/-- The decoder picks the arm by the opcode; each operand is then read back from the field it was put into. -/
theorem decode_encode {i : Instr} (h : i.wellFormed = true) : decode (encode i) = .ok i := by
  have ha : aField (encode i) = i.aBits := aField_encode i
  rw [decode, opField_encode]
  cases i with
  | nop | init | rsenc | rsdec | crcclr | crcget | crcfr | corr | lookup | validate | unpack | repack | crcfix | descr
    | fields => rfl
  | bufpush v | extract p | push v => simp [Instr.opcode, formatD, Instr.aBits, Instr.dBits]
  | crcupd b =>
    have hbyte : byteOperand (dField (encode (.crcupd b))) .crcupd = .ok (.crcupd b) := by
      rw [dField_encode]
      exact byteOperand_zeroExtend b _
    exact (if_pos ha).trans hbyte
  | wrcw k x =>
    rw [dField_encode]
    exact (indexOperand_zeroExtend ha (of_decide_eq_true h) _).trans (symOperand_zeroExtend x _)
  | wrfr j b =>
    rw [dField_encode]
    exact (indexOperand_zeroExtend ha (of_decide_eq_true h) _).trans (byteOperand_zeroExtend b _)
  | rdcw k | rdfr k =>
    exact (indexOperand_zeroExtend ha (of_decide_eq_true h) _).trans (if_pos (dField_encode _))
  | rdbuf sel p => simp [Instr.opcode, selected, Instr.aBits, Instr.dBits]
  | rdst sel => simp [Instr.opcode, selected, zeroD, Instr.aBits, Instr.dBits]
  | rdbyte b p =>
    rw [aField_encode, dField_encode]
    exact congrArg (selected · _) (bitOf_code b)

/-- Settles O1: the round trip for every command. -/
theorem wellFormedCommandsDecodeToThemselves : Obligations.WellFormedCommandsDecodeToThemselves :=
  fun _ h => decode_encode h

/-! ## Encode after decode -/

/-- A command is well formed and `w` is its word. -/
def IsWordOf (w : Word) (i : Instr) : Prop := i.wellFormed = true ∧ encode i = w

/-- A decoding result that, unless it is a rejection, is the command whose word `w` is. -/
def Faithful (w : Word) (r : Except Reject Instr) : Prop := ∀ i, r = .ok i → IsWordOf w i

namespace Faithful

variable {w : Word}

theorem error (e : Reject) : Faithful w (.error e) := fun _ h => nomatch h

theorem ok {i : Instr} (hop : opField w = i.opcode) (ha : aField w = i.aBits) (hd : dField w = i.dBits)
    (hwf : i.wellFormed = true := by rfl) : Faithful w (.ok i) := by
  rintro _ ⟨⟩
  exact ⟨hwf, (eq_makeWord_iff.2 ⟨hop, ha, hd⟩).symm⟩

theorem guarded {p : Prop} [Decidable p] {r : Except Reject Instr} {e : Reject} (h : p → Faithful w r) :
    Faithful w (if p then r else .error e) := by
  split
  next hp => exact h hp
  next => exact error e

theorem formatN {i : Instr} (hop : opField w = i.opcode) (ha : i.aBits = 0 := by rfl) (hd : i.dBits = 0 := by rfl)
    (hwf : i.wellFormed = true := by rfl) : Faithful w (formatN w i) :=
  guarded fun ⟨ha', hd'⟩ => ok hop (ha'.trans ha.symm) (hd'.trans hd.symm) hwf

theorem formatD {f : BitVec 16 → Except Reject Instr} (h : aField w = 0 → Faithful w (f (dField w))) :
    Faithful w (formatD w f) := guarded h

theorem zeroD {i : Instr} (h : dField w = 0 → Faithful w (.ok i)) : Faithful w (zeroD w i) := guarded h

theorem indexOperand {top : Nat} (htop : top < 16) {f : BitVec 4 → Except Reject Instr}
    (h : ∀ k : BitVec 4, aField w = k.zeroExtend 8 → k.toNat ≤ top → Faithful w (f k)) :
    Faithful w (indexOperand top w f) :=
  guarded fun hle => by
    have hk : ((aField w).extractLsb' 0 4).zeroExtend 8 = aField w :=
      zeroExtend_extractLsb'_of_lt (Nat.lt_of_le_of_lt hle htop)
    have hnat : ((aField w).extractLsb' 0 4).toNat ≤ top := by simpa using (Nat.mod_le _ _).trans hle
    exact h _ hk.symm hnat

theorem byteOperand {f : Byte → Instr} (h : ∀ b : Byte, dField w = b.zeroExtend 16 → Faithful w (.ok (f b))) :
    Faithful w (byteOperand (dField w) f) :=
  guarded fun hlt => h _ (zeroExtend_extractLsb'_of_lt (m := 8) hlt).symm

theorem symOperand {f : Sym → Instr} (h : ∀ x : Sym, dField w = x.zeroExtend 16 → Faithful w (.ok (f x))) :
    Faithful w (symOperand (dField w) f) :=
  guarded fun hlt => h _ (zeroExtend_extractLsb'_of_lt (m := 4) hlt).symm

theorem selected {α : Type} {sel : Option α} {f : α → Except Reject Instr}
    (h : ∀ x, sel = some x → Faithful w (f x)) : Faithful w (selected sel f) := by
  cases sel with
  | some x => exact h x rfl
  | none => exact error _

end Faithful

/-- One line per arm of the decoder, in its order. -/
theorem decode_faithful (w : Word) : Faithful w (decode w) := by
  unfold decode
  split
  next hop => exact .formatN hop
  next hop => exact .formatN hop
  next hop => exact .formatN hop
  next hop => exact .formatN hop
  next hop => exact .indexOperand (by decide) fun k ha hk => .symOperand fun x hd => .ok hop ha hd (decide_eq_true hk)
  next hop => exact .indexOperand (by decide) fun k ha hk => .zeroD fun hd => .ok hop ha hd (decide_eq_true hk)
  next hop => exact .formatN hop
  next hop => exact .formatD fun ha => .byteOperand fun b hd => .ok hop ha hd
  next hop => exact .formatN hop
  next hop => exact .formatN hop
  next hop => exact .formatD fun ha => .ok hop ha rfl
  next hop => exact .formatN hop
  next hop => exact .selected fun sel hsel => .ok hop (windowArrayOf_some hsel) rfl
  next hop => exact .selected fun sel hsel => .zeroD fun hd => .ok hop (scalarOf_some hsel) hd
  next hop => exact .formatN hop
  next hop => exact .selected fun b hb => .ok hop (bitOf_some hb) rfl
  next hop => exact .formatD fun ha => .ok hop ha rfl
  next hop => exact .formatN hop
  next hop => exact .formatN hop
  next hop => exact .formatN hop
  next hop => exact .formatN hop
  next hop => exact .formatN hop
  next hop => exact .formatN hop
  next hop => exact .indexOperand (by decide) fun j ha hj => .byteOperand fun b hd => .ok hop ha hd (decide_eq_true hj)
  next hop => exact .indexOperand (by decide) fun j ha hj => .zeroD fun hd => .ok hop ha hd (decide_eq_true hj)
  next hop => exact .formatD fun ha => .ok hop ha rfl
  next => exact .error _

/-- Settles O2: a field that an arm accepts is the field of the command it answers. -/
theorem decodedWordIsTheCommandsEncoding : Obligations.DecodedWordIsTheCommandsEncoding :=
  decode_faithful

theorem IsWordOf.decode_eq {w : Word} {i : Instr} (h : IsWordOf w i) : decode w = .ok i := by
  obtain ⟨hwf, rfl⟩ := h
  exact decode_encode hwf

/-- The decoder, both ways at once. -/
theorem decode_eq_ok_iff {w : Word} {i : Instr} : decode w = .ok i ↔ IsWordOf w i :=
  ⟨decode_faithful w i, IsWordOf.decode_eq⟩

/-- Settles O4: each word is the word of its command. -/
theorem writtenOutWordsDecode : Obligations.WrittenOutWordsDecode :=
  ⟨IsWordOf.decode_eq ⟨rfl, rfl⟩, IsWordOf.decode_eq ⟨rfl, rfl⟩, IsWordOf.decode_eq ⟨rfl, rfl⟩,
    IsWordOf.decode_eq ⟨rfl, rfl⟩, IsWordOf.decode_eq ⟨rfl, rfl⟩, IsWordOf.decode_eq ⟨rfl, rfl⟩,
    IsWordOf.decode_eq ⟨rfl, rfl⟩⟩

/-! ## The rows of the opcode table (spec/30_encoding.md R87) -/

open Sys2Proof.Machine

/-- The word passes the row's mask, match and range checks. -/
def Machine.TableRow.Matches (r : TableRow) (w : Word) : Prop :=
  w &&& r.mask = r.value ∧ r.inRange w = true

/-- The word means a command that is legal in the block built with `c`. -/
def LegalWord (c : Config) (w : Word) : Prop := ∃ i, decode w = .ok i ∧ i.legalFor c = true

theorem legalWord_iff {c : Config} {w : Word} : LegalWord c w ↔ ∃ i, i.legalFor c = true ∧ encode i = w := by
  constructor
  · rintro ⟨i, hdec, hlegal⟩
    obtain ⟨-, hword⟩ := decode_eq_ok_iff.1 hdec
    exact ⟨i, hlegal, hword⟩
  · rintro ⟨i, hlegal, hword⟩
    obtain ⟨hwf, -⟩ := Bool.and_eq_true_iff.1 hlegal
    exact ⟨i, decode_eq_ok_iff.2 ⟨hwf, hword⟩, hlegal⟩

/-- A format N row fixes the whole word. -/
theorem fixedRow_matches {op : Nat} {w : Word} : (fixedRow op).Matches w ↔ w = BitVec.ofNat 32 (op * 2 ^ 24) := by
  have hmask : w &&& (fixedRow op).mask = w := BitVec.and_allOnes
  rw [TableRow.Matches, hmask]
  exact and_iff_left rfl

/-- A mask of all but the low `k` bits leaves 0 of the values of `k` bits only. -/
theorem and_highMask_eq_zero_iff {n k : Nat} {x : BitVec n} :
    x &&& BitVec.allOnes n <<< k = 0 ↔ x.toNat < 2 ^ k := by
  have hlt : x.toNat / 2 ^ k * 2 ^ k < 2 ^ n := Nat.lt_of_le_of_lt (Nat.div_mul_le_self _ _) x.isLt
  rw [← BitVec.shiftLeft_ushiftRight, ← BitVec.toNat_inj]
  simp [Nat.shiftLeft_eq, Nat.shiftRight_eq_div_pow, Nat.mod_eq_of_lt hlt, Nat.div_eq_zero_iff]

/-- The mask of a row that fixes the opcode and, of the operand fields, all but the `na` low bits of `a` and the `nd` low
bits of `d`. -/
def fieldMask (na nd : Nat) : Word := makeWord 0xFF (BitVec.allOnes 8 <<< na) (BitVec.allOnes 16 <<< nd)

theorem and_fieldMask_eq_iff {w : Word} {op : BitVec 8} {na nd : Nat} :
    w &&& fieldMask na nd = makeWord op 0 0 ↔
      opField w = op ∧ (∃ x : BitVec na, aField w = x.zeroExtend 8) ∧
        ∃ y : BitVec nd, dField w = y.zeroExtend 16 := by
  have hop : opField (w &&& fieldMask na nd) = opField w &&& opField (fieldMask na nd) := BitVec.extractLsb'_and
  have ha : aField (w &&& fieldMask na nd) = aField w &&& aField (fieldMask na nd) := BitVec.extractLsb'_and
  have hd : dField (w &&& fieldMask na nd) = dField w &&& dField (fieldMask na nd) := BitVec.extractLsb'_and
  have hall : opField w &&& 0xFF = opField w := BitVec.and_allOnes
  rw [eq_makeWord_iff, hop, ha, hd, fieldMask, opField_makeWord, aField_makeWord, dField_makeWord, hall,
    and_highMask_eq_zero_iff, and_highMask_eq_zero_iff, lt_two_pow_iff_exists_zeroExtend,
    lt_two_pow_iff_exists_zeroExtend]

/-- What such a row admits, in the fields of the word. -/
theorem Machine.TableRow.matches_iff {r : TableRow} {w : Word} (op : BitVec 8) (na nd : Nat)
    (hmask : r.mask = fieldMask na nd := by rfl) (hvalue : r.value = makeWord op 0 0 := by rfl) :
    r.Matches w ↔ (opField w = op ∧ (∃ x : BitVec na, aField w = x.zeroExtend 8) ∧
      ∃ y : BitVec nd, dField w = y.zeroExtend 16) ∧ r.inRange w = true := by
  rw [TableRow.Matches, hmask, hvalue, and_fieldMask_eq_iff]

/-- The number that the table's range checks on field `a` look at. -/
theorem aOperand_toNat {w : Word} {m : Nat} {x : BitVec m} (hm : m ≤ 8) (ha : aField w = x.zeroExtend 8) :
    w.toNat / 2 ^ 16 % 2 ^ m = x.toNat := by
  have hfield : w.toNat / 2 ^ 16 % 2 ^ 8 = (aField w).toNat := by simp [aField, Nat.shiftRight_eq_div_pow]
  rw [← Nat.mod_mod_of_dvd _ (pow_dvd_pow 2 hm), hfield, ha, BitVec.toNat_setWidth_of_le hm, Nat.mod_eq_of_lt x.isLt]

/-- A range check of the table on field `a` is one on the operand there. -/
theorem aRange_iff {w : Word} {m top : Nat} {x : BitVec m} (hm : m ≤ 8) (ha : aField w = x.zeroExtend 8) :
    decide (w.toNat / 2 ^ 16 % 2 ^ m ≤ top) = true ↔ x.toNat ≤ top := by
  rw [decide_eq_true_iff, aOperand_toNat hm ha]

theorem dField_toNat (w : Word) : w.toNat % 2 ^ 16 = (dField w).toNat := by
  simp [dField]

theorem WindowArray.code_eq_zeroExtend (sel : WindowArray) :
    ∃ x : BitVec 2, sel.code = x.zeroExtend 8 ∧ x.toNat ≤ 2 := by
  cases sel <;> decide

theorem Scalar.code_eq_zeroExtend (sel : Scalar) : ∃ x : BitVec 3, sel.code = x.zeroExtend 8 ∧ x.toNat ≤ 6 := by
  cases sel <;> decide

theorem exists_windowArray_code {x : BitVec 2} (h : x.toNat ≤ 2) :
    ∃ sel : WindowArray, x.zeroExtend 8 = sel.code := by
  have hknown : ∀ x : BitVec 2, x.toNat ≤ 2 → (windowArrayOf (x.zeroExtend 8)).isSome = true := by decide
  obtain ⟨sel, hsel⟩ := Option.isSome_iff_exists.1 (hknown x h)
  exact ⟨sel, windowArrayOf_some hsel⟩

theorem exists_scalar_code {x : BitVec 3} (h : x.toNat ≤ 6) : ∃ sel : Scalar, x.zeroExtend 8 = sel.code := by
  have hknown : ∀ x : BitVec 3, x.toNat ≤ 6 → (scalarOf (x.zeroExtend 8)).isSome = true := by decide
  obtain ⟨sel, hsel⟩ := Option.isSome_iff_exists.1 (hknown x h)
  exact ⟨sel, scalarOf_some hsel⟩

theorem exists_bit_code (x : BitVec 1) : ∃ b : Bool, x.zeroExtend 8 = if b then 1 else 0 := by
  revert x
  decide

/-! ### Every legal command's word matches a row -/

/-- The rows stand in the order of the commands. -/
theorem encode_matches_row {c : Config} {i : Instr} (h : i.legalFor c = true) :
    ∃ r, (opcodeRows c.len)[i.ctorIdx]? = some r ∧ r.Matches (encode i) := by
  have ha : aField (encode i) = i.aBits := aField_encode i
  have hd : dField (encode i) = i.dBits := dField_encode i
  obtain ⟨hwf, hpos⟩ := Bool.and_eq_true_iff.1 h
  cases i with
  | nop | init | rsenc | rsdec | crcclr | crcget | crcfr | corr | lookup | validate | unpack | repack | crcfix | descr
    | fields => exact ⟨_, rfl, fixedRow_matches.2 rfl⟩
  | wrcw k x =>
    have hk : k.toNat ≤ 14 := of_decide_eq_true hwf
    exact ⟨_, rfl, (TableRow.matches_iff 0x12 4 4).2 ⟨⟨opField_encode _, ⟨k, ha⟩, ⟨x, hd⟩⟩,
      (aRange_iff (by decide) ha).2 hk⟩⟩
  | rdcw k =>
    have hk : k.toNat ≤ 14 := of_decide_eq_true hwf
    exact ⟨_, rfl, (TableRow.matches_iff 0x13 4 0).2 ⟨⟨opField_encode _, ⟨k, ha⟩, ⟨0, hd⟩⟩,
      (aRange_iff (by decide) ha).2 hk⟩⟩
  | crcupd b =>
    exact ⟨_, rfl, (TableRow.matches_iff 0x21 0 8).2 ⟨⟨opField_encode _, ⟨0, ha⟩, ⟨b, hd⟩⟩, rfl⟩⟩
  | bufpush v =>
    exact ⟨_, rfl, (TableRow.matches_iff 0x30 0 16).2 ⟨⟨opField_encode _, ⟨0, ha⟩, ⟨v, hd⟩⟩, rfl⟩⟩
  | rdbuf sel p =>
    obtain ⟨x, hsel, hx⟩ := sel.code_eq_zeroExtend
    have hlast : p.toNat ≤ c.len - 1 := Nat.le_sub_one_of_lt (of_decide_eq_true hpos)
    exact ⟨_, rfl, (TableRow.matches_iff 0x32 2 16).2 ⟨⟨opField_encode _, ⟨x, ha.trans hsel⟩, ⟨p, hd⟩⟩,
      Bool.and_eq_true_iff.2 ⟨(aRange_iff (by decide) (ha.trans hsel)).2 hx,
        decide_eq_true ((dField_toNat _).trans_le (hd ▸ hlast))⟩⟩⟩
  | rdst sel =>
    obtain ⟨x, hsel, hx⟩ := sel.code_eq_zeroExtend
    exact ⟨_, rfl, (TableRow.matches_iff 0x33 3 0).2 ⟨⟨opField_encode _, ⟨x, ha.trans hsel⟩, ⟨0, hd⟩⟩,
      (aRange_iff (by decide) (ha.trans hsel)).2 hx⟩⟩
  | rdbyte b p =>
    have hbit : aField (encode (.rdbyte b p)) = (BitVec.ofBool b).zeroExtend 8 := by cases b <;> exact ha
    exact ⟨_, rfl, (TableRow.matches_iff 0x41 1 16).2 ⟨⟨opField_encode _, ⟨_, hbit⟩, ⟨p, hd⟩⟩, rfl⟩⟩
  | extract p =>
    exact ⟨_, rfl, (TableRow.matches_iff 0x42 0 16).2 ⟨⟨opField_encode _, ⟨0, ha⟩, ⟨p, hd⟩⟩, rfl⟩⟩
  | wrfr j b =>
    have hj : j.toNat ≤ 11 := of_decide_eq_true hwf
    exact ⟨_, rfl, (TableRow.matches_iff 0x56 4 8).2 ⟨⟨opField_encode _, ⟨j, ha⟩, ⟨b, hd⟩⟩,
      (aRange_iff (by decide) ha).2 hj⟩⟩
  | rdfr j =>
    have hj : j.toNat ≤ 11 := of_decide_eq_true hwf
    exact ⟨_, rfl, (TableRow.matches_iff 0x57 4 0).2 ⟨⟨opField_encode _, ⟨j, ha⟩, ⟨0, hd⟩⟩,
      (aRange_iff (by decide) ha).2 hj⟩⟩
  | push v =>
    exact ⟨_, rfl, (TableRow.matches_iff 0x60 0 16).2 ⟨⟨opField_encode _, ⟨0, ha⟩, ⟨v, hd⟩⟩, rfl⟩⟩

/-! ### Every row's words are legal -/

section

variable {c : Config} {w : Word}

theorem legalWord_of_fields {i : Instr} (hop : opField w = i.opcode) (ha : aField w = i.aBits) (hd : dField w = i.dBits)
    (h : i.legalFor c = true) : LegalWord c w :=
  legalWord_iff.2 ⟨i, h, (eq_makeWord_iff.2 ⟨hop, ha, hd⟩).symm⟩

theorem legalWord_of_fixedRow {op : Nat} (i : Instr) (hi : encode i = BitVec.ofNat 32 (op * 2 ^ 24) := by rfl)
    (hl : i.legalFor c = true := by rfl) : (fixedRow op).Matches w → LegalWord c w :=
  fun h => legalWord_iff.2 ⟨i, hl, hi.trans (fixedRow_matches.1 h).symm⟩

theorem zeroExtend_zeroWidth {n : Nat} (x : BitVec 0) : x.zeroExtend n = 0 := by
  rw [BitVec.of_length_zero (x := x)]
  simp

/-- The words of a row that fixes the opcode and checks its operands: one command for each choice of the free bits. -/
theorem legalWord_of_row {r : TableRow} (op : BitVec 8) (na nd : Nat)
    (hcommand : ∀ (x : BitVec na) (y : BitVec nd), aField w = x.zeroExtend 8 → dField w = y.zeroExtend 16 →
      r.inRange w = true → ∃ i : Instr, i.opcode = op ∧ i.aBits = x.zeroExtend 8 ∧ i.dBits = y.zeroExtend 16 ∧
        i.legalFor c = true)
    (hmask : r.mask = fieldMask na nd := by rfl) (hvalue : r.value = makeWord op 0 0 := by rfl) :
    r.Matches w → LegalWord c w := by
  intro h
  obtain ⟨⟨hop, ⟨x, ha⟩, ⟨y, hd⟩⟩, hrange⟩ := (TableRow.matches_iff op na nd hmask hvalue).1 h
  obtain ⟨i, hiop, hia, hid, hlegal⟩ := hcommand x y ha hd hrange
  exact legalWord_of_fields (hop.trans hiop.symm) (ha.trans hia.symm) (hd.trans hid.symm) hlegal

/-- The bound of an index operand, in the form in which `Instr.legalFor` computes it. -/
theorem indexed_legal {k : BitVec 4} {top : Nat} (h : k.toNat ≤ top) : (decide (k.toNat ≤ top) && true) = true := by
  simpa using h

/-- The range checks of a row are the operand ranges of its command. -/
theorem row_legal (hlen : 1 ≤ c.len) : ∀ r ∈ opcodeRows c.len, r.Matches w → LegalWord c w := by
  simp only [opcodeRows, List.forall_mem_append, List.forall_mem_cons, List.not_mem_nil, false_imp_iff, implies_true,
    and_true, and_assoc]
  refine ⟨legalWord_of_fixedRow .nop, legalWord_of_fixedRow .init, legalWord_of_fixedRow .rsenc,
    legalWord_of_fixedRow .rsdec, ?wrcw, ?rdcw, legalWord_of_fixedRow .crcclr, ?crcupd, legalWord_of_fixedRow .crcget,
    legalWord_of_fixedRow .crcfr, ?bufpush, legalWord_of_fixedRow .corr, ?rdbuf, ?rdst, legalWord_of_fixedRow .lookup,
    ?rdbyte, ?extract, legalWord_of_fixedRow .validate, legalWord_of_fixedRow .unpack, legalWord_of_fixedRow .repack,
    legalWord_of_fixedRow .crcfix, legalWord_of_fixedRow .descr, legalWord_of_fixedRow .fields, ?wrfr, ?rdfr, ?push⟩
  case wrcw =>
    exact legalWord_of_row 0x12 4 4 fun k x ha _ hr =>
      ⟨.wrcw k x, rfl, rfl, rfl, indexed_legal ((aRange_iff (by decide) ha).1 hr)⟩
  case rdcw =>
    exact legalWord_of_row 0x13 4 0 fun k z ha _ hr =>
      ⟨.rdcw k, rfl, rfl, (zeroExtend_zeroWidth z).symm, indexed_legal ((aRange_iff (by decide) ha).1 hr)⟩
  case crcupd =>
    exact legalWord_of_row 0x21 0 8 fun z b _ _ _ =>
      ⟨.crcupd b, rfl, (zeroExtend_zeroWidth z).symm, rfl, rfl⟩
  case bufpush =>
    exact legalWord_of_row 0x30 0 16 fun z v _ _ _ =>
      ⟨.bufpush v, rfl, (zeroExtend_zeroWidth z).symm, rfl, rfl⟩
  case rdbuf =>
    refine legalWord_of_row 0x32 2 16 fun x p ha hd hr => ?_
    obtain ⟨hsel, hlast⟩ := Bool.and_eq_true_iff.1 hr
    obtain ⟨sel, hcode⟩ := exists_windowArray_code ((aRange_iff (by decide) ha).1 hsel)
    have hpos : p.toNat < c.len := by
      rw [decide_eq_true_iff, dField_toNat, hd] at hlast
      exact Nat.lt_of_le_pred hlen hlast
    exact ⟨.rdbuf sel p, rfl, hcode.symm, rfl, decide_eq_true hpos⟩
  case rdst =>
    refine legalWord_of_row 0x33 3 0 fun x z ha _ hr => ?_
    obtain ⟨sel, hcode⟩ := exists_scalar_code ((aRange_iff (by decide) ha).1 hr)
    exact ⟨.rdst sel, rfl, hcode.symm, (zeroExtend_zeroWidth z).symm, rfl⟩
  case rdbyte =>
    refine legalWord_of_row 0x41 1 16 fun x p _ _ _ => ?_
    obtain ⟨b, hcode⟩ := exists_bit_code x
    exact ⟨.rdbyte b p, rfl, hcode.symm, rfl, rfl⟩
  case extract =>
    exact legalWord_of_row 0x42 0 16 fun z p _ _ _ =>
      ⟨.extract p, rfl, (zeroExtend_zeroWidth z).symm, rfl, rfl⟩
  case wrfr =>
    exact legalWord_of_row 0x56 4 8 fun j b ha _ hr =>
      ⟨.wrfr j b, rfl, rfl, rfl, indexed_legal ((aRange_iff (by decide) ha).1 hr)⟩
  case rdfr =>
    exact legalWord_of_row 0x57 4 0 fun j z ha _ hr =>
      ⟨.rdfr j, rfl, rfl, (zeroExtend_zeroWidth z).symm, indexed_legal ((aRange_iff (by decide) ha).1 hr)⟩
  case push =>
    exact legalWord_of_row 0x60 0 16 fun z v _ _ _ =>
      ⟨.push v, rfl, (zeroExtend_zeroWidth z).symm, rfl, rfl⟩

end

/-- Settles O3: each command's word matches the row in its place, and each row's words are those of its commands. -/
theorem legalWordsAreTheTablesRows : Obligations.LegalWordsAreTheTablesRows := by
  intro c w hlen
  constructor
  · intro hlegal
    obtain ⟨i, hi, rfl⟩ := legalWord_iff.1 hlegal
    obtain ⟨r, hr, hmatch⟩ := encode_matches_row hi
    exact ⟨r, List.mem_of_getElem? hr, hmatch⟩
  · rintro ⟨r, hr, hmatch⟩
    exact row_legal hlen r hr hmatch

/-! ## The step (spec/30_encoding.md R85) -/

theorem step_command {s : State} {w : Word} {rest : List HostInput} {i : Instr} (hport : s.port = .command w :: rest)
    (hdec : decode w = .ok i) : step s = exec i (s.setPort rest) := by
  simp only [step, hport, hdec]

/-- Settles O5: the arm of the step for a word that decodes. -/
theorem stepRunsThePresentedCommand : Obligations.StepRunsThePresentedCommand :=
  fun _ _ _ _ hport hdec => step_command hport hdec

end Sys2Proof

/-! The statements of spec/40_gf16.md. α^e depends on e mod 15 only, so what is said of the fifteen table entries holds of every
power of α, and every element but 0 is such a power: the laws of powers are those of integer exponents modulo 15. -/

namespace Sys2Proof.Machine

/-! ## The powers of α (spec/40_gf16.md R101, R102, R106) -/

theorem alphaPow_congr {e f : Int} (h : e % 15 = f % 15) : alphaPow e = alphaPow f := by
  rw [alphaPow, h, alphaPow]

/-- Every power of α is one of the fifteen of the table. -/
theorem exists_alphaPow_fin (e : Int) : ∃ r : Fin 15, (r : Int) = e % 15 ∧ alphaPow e = alphaPow (r : Int) := by
  have hr : (((e % 15).toNat : Nat) : Int) = e % 15 := by omega
  exact ⟨⟨(e % 15).toNat, by omega⟩, hr, alphaPow_congr (by dsimp only; omega)⟩

theorem alphaTo_getElem? {i : Nat} (h : i < 15) : alphaTo[i]? = some (alphaPow (i : Int)) := by
  have table : ∀ r : Fin 15, alphaTo[r.val]? = some (alphaPow (r : Int)) := by decide
  exact table ⟨i, h⟩

/-- The next power is one shift, reduced by x^4 = x + 1 where it overflows. -/
theorem alphaPow_succ (e : Int) :
    alphaPow (e + 1) = if (alphaPow e).getLsbD 3 then (alphaPow e <<< 1) ^^^ 0x3 else alphaPow e <<< 1 := by
  have table : ∀ r : Fin 15, alphaPow ((r : Int) + 1) =
      if (alphaPow (r : Int)).getLsbD 3 then (alphaPow (r : Int) <<< 1) ^^^ 0x3 else alphaPow (r : Int) <<< 1 := by decide
  obtain ⟨r, hr, he⟩ := exists_alphaPow_fin e
  have hsucc : alphaPow (e + 1) = alphaPow ((r : Int) + 1) := alphaPow_congr (by omega)
  rw [hsucc, he]
  exact table r

theorem alphaPow_ne_zero (e : Int) : alphaPow e ≠ 0 := by
  have table : ∀ r : Fin 15, alphaPow (r : Int) ≠ 0 := by decide
  obtain ⟨r, -, he⟩ := exists_alphaPow_fin e
  exact he ▸ table r

@[simp] theorem gfLog_alphaPow (e : Int) : gfLog (alphaPow e) = e % 15 := by
  have table : ∀ r : Fin 15, gfLog (alphaPow (r : Int)) = r := by decide
  obtain ⟨r, hr, he⟩ := exists_alphaPow_fin e
  rw [he, table r, hr]

theorem alphaPow_gfLog {a : Sym} (h : a ≠ 0) : alphaPow (gfLog a) = a := by
  have table : ∀ b : Sym, b ≠ 0 → alphaPow (gfLog b) = b := by decide
  exact table a h

/-- `INDEX_OF[v]` is the entry the logarithm reads: the index is in the table for every v. -/
theorem indexOf_getElem? (v : Sym) : indexOf[v.toNat]? = some (gfLog v) := by
  have table : ∀ b : Sym, indexOf[b.toNat]? = some (gfLog b) := by decide
  exact table v

/-! ## Products and powers (spec/40_gf16.md R104, R106) -/

theorem gfMul_zero (a : Sym) : gfMul a 0 = 0 := by
  rw [gfMul, if_pos (.inr rfl)]

theorem gfMul_alphaPow (e f : Int) : gfMul (alphaPow e) (alphaPow f) = alphaPow (e + f) := by
  have hne : ¬ (alphaPow e = 0 ∨ alphaPow f = 0) := not_or.2 ⟨alphaPow_ne_zero e, alphaPow_ne_zero f⟩
  rw [gfMul, if_neg hne, gfLog_alphaPow, gfLog_alphaPow]
  exact alphaPow_congr (by omega)

theorem gfPow_one {a : Sym} (h : a ≠ 0) : gfPow a 1 = a := by
  rw [gfPow_of_ne h, Int.mul_one, alphaPow_gfLog h]

theorem gfPow_add {a : Sym} (h : a ≠ 0) (e f : Int) : gfPow a (e + f) = gfMul (gfPow a e) (gfPow a f) := by
  rw [gfPow_of_ne h, gfPow_of_ne h, gfPow_of_ne h, gfMul_alphaPow, Int.mul_add]

theorem gfPow_two (e : Int) : gfPow 2 e = alphaPow e := by
  have hlog : gfLog 2 = 1 := by decide
  rw [gfPow_of_ne (by decide), hlog, Int.one_mul]

theorem gfPow_succ (a : Sym) (n : Nat) : gfPow a ((n + 1 : Nat) : Int) = gfMul (gfPow a (n : Int)) a := by
  by_cases h : a = 0
  · rw [h, zero_gfPow_succ, gfMul_zero]
  · rw [Int.natCast_add, Int.natCast_one, gfPow_add h, gfPow_one h]

theorem gfMul_gfPow_neg {a : Sym} (h : a ≠ 0) (e : Int) : gfMul (gfPow a (-e)) (gfPow a e) = 1 := by
  rw [← gfPow_add h, Int.add_left_neg, gfPow_zero]

/-! ## The generator polynomial (spec/41_rs_codec.md R121) -/

theorem gpoly_root {i : Nat} (h1 : 1 ≤ i) (h6 : i ≤ 6) : polyEval gpoly (alphaPow (i : Int)) = 0 := by
  have table : ∀ r : Fin 7, 1 ≤ r.val → polyEval gpoly (alphaPow (r : Int)) = 0 := by decide
  exact table ⟨i, by omega⟩ h1

/-- Settles O60: the tables are read as powers of α and logarithms, and the powers follow the law of exponents. -/
theorem fieldTablesAreAsConstructed : Obligations.FieldTablesAreAsConstructed := by
  refine ⟨rfl, rfl, fun i hi => ?_, rfl, rfl, fun i hi => ?_, rfl, rfl, fun _ => gpoly_root, gfPow_two, gfPow_zero,
    gfPow_succ, fun _ n h => gfMul_gfPow_neg h n⟩
  · refine ⟨_, alphaTo_getElem? (by omega), ?_⟩
    rw [alphaTo_getElem? (by omega), Int.natCast_add, Int.natCast_one, alphaPow_succ]
  · refine ⟨_, alphaTo_getElem? hi, ?_⟩
    have hlog : gfLog (alphaPow (i : Int)) = i := by rw [gfLog_alphaPow]; omega
    rw [indexOf_getElem?, hlog]

end Sys2Proof.Machine

/-! The statements of spec/41_rs_codec.md. First the words of its commands and what each command answers; then what the
encoder and the decoder compute, which is proved with polynomials over the field that the symbols form: the encoder's register
holds a remainder, Berlekamp-Massey keeps `MasseyInv`, and Forney's values are those that account for the syndromes. -/

namespace Sys2Proof

open Sys2Proof.Machine

/-! ## The words of one opcode -/

/-- The words of an opcode that decode are the words of the well-formed commands with that opcode. -/
theorem decodesExactly_of_words {op : BitVec 8} {listed : Word → Instr → Prop}
    (h : ∀ w i, listed w i ↔ i.opcode = op ∧ IsWordOf w i) : DecodesExactly op listed := by
  intro w i hop
  rw [decode_eq_ok_iff, h]
  refine ⟨fun hword => ⟨?_, hword⟩, And.right⟩
  rw [← opField_encode, hword.2]
  exact hop

/-- A command that is alone with its opcode and has no operands has one word. -/
theorem decodesExactly_single {i₀ : Instr} {op : BitVec 8} {w₀ : Word} (hop : i₀.opcode = op)
    (hwf : i₀.wellFormed = true) (hword : encode i₀ = w₀) (honly : ∀ i : Instr, i.opcode = op → i = i₀) :
    DecodesExactly op (fun w i => w = w₀ ∧ i = i₀) := by
  refine decodesExactly_of_words fun w i => ⟨?_, ?_⟩
  · rintro ⟨rfl, rfl⟩
    exact ⟨hop, hwf, hword⟩
  · rintro ⟨hi, -, hw⟩
    obtain rfl := honly i hi
    exact ⟨hw.symm.trans hword, rfl⟩

theorem eq_rsenc_of_opcode (i : Instr) (h : i.opcode = 0x10) : i = .rsenc := by
  cases i <;> simp [Instr.opcode] at h ⊢

theorem eq_rsdec_of_opcode (i : Instr) (h : i.opcode = 0x11) : i = .rsdec := by
  cases i <;> simp [Instr.opcode] at h ⊢

theorem eq_wrcw_of_opcode {i : Instr} (h : i.opcode = 0x12) : ∃ k imm, i = .wrcw k imm := by
  cases i <;> simp [Instr.opcode] at h ⊢

theorem eq_rdcw_of_opcode {i : Instr} (h : i.opcode = 0x13) : ∃ k, i = .rdcw k := by
  cases i <;> simp [Instr.opcode] at h ⊢

theorem wrcw_isWordOf {w : Word} {k : BitVec 4} {imm : Sym} :
    IsWordOf w (.wrcw k imm) ↔ k.toNat < 15 ∧ w = makeWord 0x12 (k.setWidth 8) (imm.setWidth 16) :=
  and_congr (by simp [Instr.wellFormed]; omega) eq_comm

theorem rdcw_isWordOf {w : Word} {k : BitVec 4} :
    IsWordOf w (.rdcw k) ↔ k.toNat < 15 ∧ w = makeWord 0x13 (k.setWidth 8) 0 :=
  and_congr (by simp [Instr.wellFormed]; omega) eq_comm

theorem wrcw_decodesExactly : DecodesExactly 0x12 (fun w i => ∃ (k : BitVec 4) (imm : Sym),
    k.toNat < 15 ∧ w = makeWord 0x12 (k.setWidth 8) (imm.setWidth 16) ∧ i = .wrcw k imm) := by
  refine decodesExactly_of_words fun w i => ⟨?_, ?_⟩
  · rintro ⟨k, imm, hk, hw, rfl⟩
    exact ⟨rfl, wrcw_isWordOf.2 ⟨hk, hw⟩⟩
  · rintro ⟨hop, hword⟩
    obtain ⟨k, imm, rfl⟩ := eq_wrcw_of_opcode hop
    obtain ⟨hk, hw⟩ := wrcw_isWordOf.1 hword
    exact ⟨k, imm, hk, hw, rfl⟩

theorem rdcw_decodesExactly : DecodesExactly 0x13 (fun w i =>
    ∃ k : BitVec 4, k.toNat < 15 ∧ w = makeWord 0x13 (k.setWidth 8) 0 ∧ i = .rdcw k) := by
  refine decodesExactly_of_words fun w i => ⟨?_, ?_⟩
  · rintro ⟨k, hk, hw, rfl⟩
    exact ⟨rfl, rdcw_isWordOf.2 ⟨hk, hw⟩⟩
  · rintro ⟨hop, hword⟩
    obtain ⟨k, rfl⟩ := eq_rdcw_of_opcode hop
    obtain ⟨hk, hw⟩ := rdcw_isWordOf.1 hword
    exact ⟨k, hk, hw, rfl⟩

end Sys2Proof

namespace Sys2Proof.Machine

/-! ## What the commands answer -/

section Answers

variable {s : State} (hc : LegalConfig s.cfg)
include hc

theorem exec_rsenc : exec .rsenc s = .next (s.rsenc.reply .ok 0) :=
  commit_some ((configLegal_iff _).2 hc)

theorem exec_rsdec_some {cw : Codeword} (h : rsDecode s.cfg.order s.cw = some cw) :
    exec .rsdec s = .next ((s.setCw cw).reply .ok 0) := by
  have hd : s.rsdec = some (s.setCw cw) := by rw [State.rsdec, h, Option.map_some]
  simp only [exec, execRsdec, hd]
  exact commit_some ((configLegal_iff _).2 hc)

theorem exec_rsdec_none (h : rsDecode s.cfg.order s.cw = none) : exec .rsdec s = .next (s.reply .fail 0) := by
  have hd : s.rsdec = none := by rw [State.rsdec, h, Option.map_none]
  simp only [exec, execRsdec, hd]
  exact commit_some ((configLegal_iff _).2 hc)

theorem exec_wrcw {k : BitVec 4} (hk : k.toNat < 15) (imm : Sym) :
    exec (.wrcw k imm) s = .next ((s.setCw (s.cw.set k.toNat imm)).reply .ok 0) := by
  simp only [exec, execWrcw, indexOf?_some hk]
  exact commit_some ((configLegal_iff _).2 hc)

theorem exec_rdcw {k : BitVec 4} (hk : k.toNat < 15) :
    exec (.rdcw k) s = .next (s.reply .ok (zext s.cw[k.toNat])) := by
  simp only [exec, execRdcw, indexOf?_some hk]
  exact commit_some ((configLegal_iff _).2 hc)

theorem exec_wrcw_illegal {k : BitVec 4} (hk : 14 < k.toNat) (imm : Sym) : exec (.wrcw k imm) s = .next s.illegal := by
  simp only [exec, execWrcw, indexOf?_none hk]
  exact commit_some ((configLegal_iff _).2 hc)

theorem exec_rdcw_illegal {k : BitVec 4} (hk : 14 < k.toNat) : exec (.rdcw k) s = .next s.illegal := by
  simp only [exec, execRdcw, indexOf?_none hk]
  exact commit_some ((configLegal_iff _).2 hc)

end Answers

/-- Settles O27: an index below 15 is a symbol's, the other one is refused. -/
theorem symbolAccessReadsAndWrites : Obligations.SymbolAccessReadsAndWrites :=
  ⟨wrcw_decodesExactly, rdcw_decodesExactly, fun _ _ imm hc =>
    ⟨fun hk => ⟨exec_wrcw hc hk imm, exec_rdcw hc hk⟩,
      fun hk => ⟨exec_wrcw_illegal hc hk imm, exec_rdcw_illegal hc hk⟩⟩⟩

/-- Settles O24: the decoder answers a word or nothing, and RSDEC reports which. -/
theorem rsdecAnswersOkOrFail : Obligations.RsdecAnswersOkOrFail := by
  refine ⟨decodesExactly_single rfl rfl rfl eq_rsdec_of_opcode, fun s hc => ?_⟩
  cases h : rsDecode s.cfg.order s.cw with
  | some cw => exact .inl ⟨cw, exec_rsdec_some hc h⟩
  | none => exact .inr (exec_rsdec_none hc h)

/-! ## The symbols form a field (spec/40_gf16.md R103 to R107) -/

theorem gfMul_comm (a b : Sym) : gfMul a b = gfMul b a := by
  simp only [gfMul, or_comm, Int.add_comm]

theorem zero_gfMul (a : Sym) : gfMul 0 a = 0 := by
  rw [gfMul_comm, gfMul_zero]

theorem exists_eq_alphaPow {a : Sym} (h : a ≠ 0) : ∃ n : Nat, a = alphaPow (n : Int) := by
  obtain ⟨r, -, he⟩ := exists_alphaPow_fin (gfLog a)
  exact ⟨r, by rw [← he, alphaPow_gfLog h]⟩

theorem one_gfMul (a : Sym) : gfMul 1 a = a := by
  by_cases h : a = 0
  · rw [h, gfMul_zero]
  · obtain ⟨n, rfl⟩ := exists_eq_alphaPow h
    have hone : (1 : Sym) = alphaPow 0 := rfl
    rw [hone, gfMul_alphaPow, Int.zero_add]

theorem gfMul_assoc (a b c : Sym) : gfMul (gfMul a b) c = gfMul a (gfMul b c) := by
  by_cases ha : a = 0
  · simp only [ha, zero_gfMul]
  by_cases hb : b = 0
  · simp only [hb, zero_gfMul, gfMul_zero]
  by_cases hc : c = 0
  · simp only [hc, gfMul_zero]
  obtain ⟨k, rfl⟩ := exists_eq_alphaPow ha
  obtain ⟨m, rfl⟩ := exists_eq_alphaPow hb
  obtain ⟨n, rfl⟩ := exists_eq_alphaPow hc
  simp only [gfMul_alphaPow, Int.add_assoc]

theorem gfMul_two_gfAdd (b c : Sym) : gfMul 2 (gfAdd b c) = gfAdd (gfMul 2 b) (gfMul 2 c) := by
  have table : ∀ b c : Sym, gfMul 2 (gfAdd b c) = gfAdd (gfMul 2 b) (gfMul 2 c) := by decide
  exact table b c

/-- Multiplication by α distributes, and every other factor is a power of α. -/
theorem gfMul_gfAdd (a b c : Sym) : gfMul a (gfAdd b c) = gfAdd (gfMul a b) (gfMul a c) := by
  by_cases ha : a = 0
  · simp only [ha, zero_gfMul]
    rfl
  obtain ⟨n, rfl⟩ := exists_eq_alphaPow ha
  induction n with
  | zero =>
    have hone : alphaPow ((0 : Nat) : Int) = 1 := rfl
    simp only [hone, one_gfMul]
  | succ n ih =>
    have hsucc : alphaPow ((n + 1 : Nat) : Int) = gfMul 2 (alphaPow (n : Int)) := by
      have htwo : (2 : Sym) = alphaPow 1 := rfl
      rw [htwo, gfMul_alphaPow, Int.natCast_add, Int.natCast_one, Int.add_comm]
    simp only [hsucc, gfMul_assoc, ih (alphaPow_ne_zero _), gfMul_two_gfAdd]

theorem gfMul_gfInv {a : Sym} (h : a ≠ 0) : gfMul a (gfInv a) = 1 := by
  obtain ⟨n, rfl⟩ := exists_eq_alphaPow h
  rw [gfInv, if_neg h, gfMul_alphaPow, gfLog_alphaPow]
  exact alphaPow_congr (f := 0) (by omega)

/-- The symbols under a name of their own, to carry the field operations of 40_gf16.md. -/
def GF16 : Type := Sym

/-- The field of the symbols; the inverse of 0, which the spec leaves open, is 0 here. -/
@[reducible] def GF16.field : Field GF16 :=
  @Field.ofMinimalAxioms GF16 ⟨gfAdd⟩ ⟨gfMul⟩ ⟨id⟩ ⟨fun a : Sym => if a = 0 then (0 : Sym) else gfInv a⟩ ⟨(0 : Sym)⟩
    ⟨(1 : Sym)⟩
    (add_assoc := BitVec.xor_assoc)
    (zero_add := fun _ => BitVec.zero_xor)
    (neg_add_cancel := fun _ => BitVec.xor_self)
    (mul_assoc := gfMul_assoc)
    (mul_comm := gfMul_comm)
    (one_mul := one_gfMul)
    (mul_inv_cancel := fun a h => (congrArg (gfMul a) (if_neg h)).trans (gfMul_gfInv h))
    (inv_zero := if_pos rfl)
    (left_distrib := gfMul_gfAdd)
    (exists_pair_ne := ⟨(0 : Sym), (1 : Sym), (by decide : (0 : Sym) ≠ 1)⟩)

/-- `φ` reads the symbols as elements of the field `F`, with the operations of 40_gf16.md as those of `F`. -/
structure IsSymbolField (F : Type) [Field F] (φ : Sym → F) : Prop where
  map_zero : φ 0 = 0
  map_one : φ 1 = 1
  map_add : ∀ a b, φ (gfAdd a b) = φ a + φ b
  map_mul : ∀ a b, φ (gfMul a b) = φ a * φ b
  injective : Function.Injective φ

theorem GF16.isSymbolField : @IsSymbolField GF16 GF16.field id :=
  @IsSymbolField.mk GF16 GF16.field id rfl rfl (fun _ _ => rfl) (fun _ _ => rfl) Function.injective_id

theorem exists_symbolField : ∃ (F : Type) (_ : Field F) (φ : Sym → F), IsSymbolField F φ :=
  ⟨GF16, GF16.field, _, GF16.isSymbolField⟩

/-! ## Linear recurrences over a field (spec/41_rs_codec.md R128)

`S` is the polynomial of the syndromes: its coefficient d is S[d + 1]. -/

section Recurrence

open Polynomial

variable {F : Type} [Field F]

/-- The recurrence of length `len` with the connection polynomial `σ` produces the first `n` coefficients of `S`. -/
structure Generates (S : F[X]) (n len : Nat) (σ : F[X]) : Prop where
  coeff_zero : σ.coeff 0 = 1
  natDegree_le : σ.natDegree ≤ len
  coeff_mul : ∀ d, len ≤ d → d < n → (σ * S).coeff d = 0

theorem Generates.ne_zero {S σ : F[X]} {n len : Nat} (h : Generates S n len σ) : σ ≠ 0 := fun h0 => by
  simpa [h0] using h.coeff_zero

/-- A coefficient of a product, by the coefficients that the degree bound of the left factor leaves. -/
theorem coeff_mul_eq_sum_range {σ : F[X]} {len : Nat} (hσ : σ.natDegree ≤ len) (S : F[X]) (d : Nat) :
    (σ * S).coeff d = ∑ j ∈ Finset.range (min d len + 1), σ.coeff j * S.coeff (d - j) := by
  rw [coeff_mul, Finset.Nat.sum_antidiagonal_eq_sum_range_succ fun i j => σ.coeff i * S.coeff j]
  refine (Finset.sum_subset (Finset.range_mono (by omega)) fun j hj hlen => ?_).symm
  rw [Finset.mem_range] at hj hlen
  rw [coeff_eq_zero_of_natDegree_lt (by omega), zero_mul]

/-- A coefficient of a product in which only the constant term of `A` meets a coefficient of `T` other than 0. -/
theorem coeff_mul_eq_of_vanishing {A T : F[X]} {a n : Nat} (hA : A.natDegree ≤ a)
    (hT : ∀ d, n ≤ d + a → d < n → T.coeff d = 0) : (A * T).coeff n = A.coeff 0 * T.coeff n := by
  rw [coeff_mul]
  refine Finset.sum_eq_single (0, n) (fun ij hij hne => ?_) (fun h => absurd (by simp) h)
  obtain ⟨i, j⟩ := ij
  have hsum : i + j = n := Finset.HasAntidiagonal.mem_antidiagonal.1 hij
  have hi : i ≠ 0 := by
    rintro rfl
    exact hne (by rw [← hsum, Nat.zero_add])
  by_cases hia : i ≤ a
  · rw [hT j (by omega) (by omega), mul_zero]
  · rw [coeff_eq_zero_of_natDegree_lt (by omega), zero_mul]

/-- Massey's bound: a recurrence that gets past the first failure of another one of length `len` has length at least
n + 1 - len. -/
theorem Generates.lt_add_length {S σ τ : F[X]} {n N len t : Nat} (hσ : Generates S n len σ)
    (hfail : (σ * S).coeff n ≠ 0) (hτ : Generates S N t τ) (hn : n < N) : n < t + len := by
  by_contra hlt
  refine hfail ?_
  have hleft : (τ * (σ * S)).coeff n = (σ * S).coeff n := by
    rw [coeff_mul_eq_of_vanishing hτ.natDegree_le fun d _ hd => hσ.coeff_mul d (by omega) hd, hτ.coeff_zero, one_mul]
  have hright : (σ * (τ * S)).coeff n = 0 := by
    rw [coeff_mul_eq_of_vanishing hσ.natDegree_le fun d _ hd => hτ.coeff_mul d (by omega) (by omega),
      hτ.coeff_mul n (by omega) hn, mul_zero]
  rw [← hleft, mul_left_comm, hright]

/-- A factor with constant term 1 can be cancelled from the low coefficients of a product. -/
theorem coeff_eq_zero_of_coeff_mul_eq_zero {A T : F[X]} {n : Nat} (hA : A.coeff 0 = 1)
    (h : ∀ d < n, (A * T).coeff d = 0) : ∀ d < n, T.coeff d = 0 := by
  intro d
  induction d using Nat.strong_induction_on with
  | _ d ih =>
    intro hd
    have hcoeff : (A * T).coeff d = A.coeff 0 * T.coeff d :=
      coeff_mul_eq_of_vanishing le_rfl fun k _ hk => ih k hk (by omega)
    rw [← h d hd, hcoeff, hA, one_mul]

/-! ### Sums of geometric sequences -/

variable {E : Finset ℕ} {x y : ℕ → F}

/-- A combination of geometric sequences with different ratios that has as many zeros in a row as it has sequences is
trivial. -/
theorem eq_zero_of_sum_mul_pow_eq_zero (hx : Set.InjOn x E) (h : ∀ i < E.card, ∑ k ∈ E, y k * x k ^ i = 0) :
    ∀ k ∈ E, y k = 0 := by
  have hinj : Function.Injective fun i : Fin E.card => x (E.equivFin.symm i) := fun i j hij =>
    E.equivFin.symm.injective (Subtype.ext (hx (E.equivFin.symm i).2 (E.equivFin.symm j).2 hij))
  have hzero : (fun i : Fin E.card => y (E.equivFin.symm i)) = 0 := by
    refine Matrix.eq_zero_of_forall_pow_sum_mul_pow_eq_zero hinj fun i => ?_
    rw [E.equivFin.symm.sum_comp fun k : E => y k * x k ^ (i : Nat), Finset.sum_coe_sort E fun k => y k * x k ^ (i : Nat)]
    exact h i i.2
  intro k hk
  simpa using congrFun hzero (E.equivFin ⟨k, hk⟩)

/-- `S` is, up to coefficient 5, the sum of the geometric sequences y·x, y·x², ...: the syndromes of errors of the values `y`
at the locators `x` (spec/41_rs_codec.md R135 i). -/
def IsPowerSum (S : F[X]) (E : Finset ℕ) (x y : ℕ → F) : Prop := ∀ d < 6, S.coeff d = ∑ k ∈ E, y k * x k ^ (d + 1)

/-- Applying a recurrence to a sum of geometric sequences evaluates its polynomial at the inverse ratios. -/
theorem IsPowerSum.coeff_mul {S σ : F[X]} (hS : IsPowerSum S E x y) (hx : ∀ k ∈ E, x k ≠ 0) {d : Nat}
    (hσ : σ.natDegree ≤ d) (hd : d < 6) :
    (σ * S).coeff d = ∑ k ∈ E, y k * x k ^ (d + 1) * σ.eval (x k)⁻¹ := by
  calc (σ * S).coeff d
      = ∑ j ∈ Finset.range (d + 1), σ.coeff j * S.coeff (d - j) := by
        rw [coeff_mul_eq_sum_range hσ, min_self]
    _ = ∑ j ∈ Finset.range (d + 1), ∑ k ∈ E, y k * x k ^ (d + 1) * (σ.coeff j * (x k)⁻¹ ^ j) := by
        refine Finset.sum_congr rfl fun j hj => ?_
        rw [hS _ (by omega), Finset.mul_sum]
        refine Finset.sum_congr rfl fun k hk => ?_
        have hj' : j ≤ d := Nat.lt_succ_iff.1 (Finset.mem_range.1 hj)
        have hexp : d + 1 = d - j + 1 + j := by omega
        have hpow : x k ^ (d + 1) * (x k)⁻¹ ^ j = x k ^ (d - j + 1) := by
          rw [hexp, pow_add, mul_assoc, ← mul_pow, mul_inv_cancel₀ (hx k hk), one_pow, mul_one]
        rw [← hpow]
        ring
    _ = ∑ k ∈ E, y k * x k ^ (d + 1) * σ.eval (x k)⁻¹ := by
        rw [Finset.sum_comm]
        refine Finset.sum_congr rfl fun k _ => ?_
        rw [← Finset.mul_sum, eval_eq_sum_range' (Nat.lt_succ_of_le hσ)]

/-- The locator of the positions: the product of the 1 - x·X. -/
noncomputable def locatorOf (E : Finset ℕ) (x : ℕ → F) : F[X] := ∏ k ∈ E, (1 - C (x k) * X)

/-- Errors at `E` give syndromes that their locator generates. -/
theorem IsPowerSum.generates {S : F[X]} (hS : IsPowerSum S E x y) (hx : ∀ k ∈ E, x k ≠ 0) :
    Generates S 6 E.card (locatorOf E x) := by
  have hdeg : (locatorOf E x).natDegree ≤ E.card := by
    refine (natDegree_prod_le _ _).trans ((Finset.sum_le_card_nsmul E _ 1 fun k _ => ?_).trans_eq (by simp))
    compute_degree
  have hroot : ∀ k ∈ E, (locatorOf E x).eval (x k)⁻¹ = 0 := fun k hk => by
    rw [locatorOf, eval_prod]
    exact Finset.prod_eq_zero hk (by simp [hx k hk])
  refine ⟨?_, hdeg, fun d hd hd6 => ?_⟩
  · rw [locatorOf, coeff_zero_eq_eval_zero, eval_prod]
    simp
  · rw [hS.coeff_mul hx (hdeg.trans hd) hd6]
    exact Finset.sum_eq_zero fun k hk => by rw [hroot k hk, mul_zero]

/-- A recurrence that is short enough for the number of errors has the inverse of every locator as a root. -/
theorem IsPowerSum.eval_eq_zero {S σ : F[X]} {len : Nat} (hS : IsPowerSum S E x y) (hx : ∀ k ∈ E, x k ≠ 0)
    (hinj : Set.InjOn x E) (hy : ∀ k ∈ E, y k ≠ 0) (hσ : Generates S 6 len σ) (hlen : len + E.card ≤ 6) :
    ∀ k ∈ E, σ.eval (x k)⁻¹ = 0 := by
  have hzero : ∀ k ∈ E, y k * x k ^ (len + 1) * σ.eval (x k)⁻¹ = 0 := by
    refine eq_zero_of_sum_mul_pow_eq_zero hinj fun i hi => ?_
    rw [← hσ.coeff_mul (len + i) (by omega) (by omega), hS.coeff_mul hx (hσ.natDegree_le.trans (by omega)) (by omega)]
    exact Finset.sum_congr rfl fun k _ => by ring
  intro k hk
  exact (mul_eq_zero.1 (hzero k hk)).resolve_left (mul_ne_zero (hy k hk) (pow_ne_zero _ (hx k hk)))

/-! ### Forney's formula (spec/41_rs_codec.md R133) -/

/-- The locator without the root 1/x. -/
noncomputable def withoutRoot (σ : F[X]) (x : F) : F[X] := σ /ₘ (X - C x⁻¹)

variable {σ : F[X]} {a : F}

theorem sub_mul_withoutRoot (h : σ.eval a⁻¹ = 0) : (X - C a⁻¹) * withoutRoot σ a = σ :=
  mul_divByMonic_eq_iff_isRoot.2 h

theorem eval_withoutRoot_self (h : σ.eval a⁻¹ = 0) :
    (withoutRoot σ a).eval a⁻¹ = (derivative σ).eval a⁻¹ := by
  conv_rhs => rw [← sub_mul_withoutRoot h]
  simp [derivative_mul]

theorem eval_withoutRoot_of_ne {b : F} (ha : σ.eval a⁻¹ = 0) (hb : σ.eval b⁻¹ = 0) (hne : b ≠ a) :
    (withoutRoot σ a).eval b⁻¹ = 0 := by
  rw [← sub_mul_withoutRoot ha, eval_mul, eval_sub, eval_X, eval_C] at hb
  exact (mul_eq_zero.1 hb).resolve_left (sub_ne_zero.2 fun h => hne (inv_injective h))

theorem degree_withoutRoot_lt {n : Nat} (h0 : σ ≠ 0) (hσ : σ.natDegree ≤ n) : (withoutRoot σ a).degree < n :=
  (degree_divByMonic_lt σ _ h0 (by simp)).trans_le (degree_le_of_natDegree_le hσ)

/-- The sequence a, a², ..., a⁶ as a polynomial. -/
noncomputable def geometric (a : F) : F[X] := C a * ∑ i ∈ Finset.range 6, (C a * X) ^ i

theorem geometric_coeff {d : Nat} (hd : d < 6) : (geometric a).coeff d = a ^ (d + 1) := by
  have hterm : ∀ i ∈ Finset.range 6, ((C a * X) ^ i).coeff d = if i = d then a ^ d else 0 := fun i _ => by
    rw [mul_pow, ← C_pow, coeff_C_mul_X_pow]
    by_cases h : i = d
    · rw [if_pos h.symm, if_pos h, h]
    · rw [if_neg (Ne.symm h), if_neg h]
  rw [geometric, coeff_C_mul, finsetSum_coeff, Finset.sum_congr rfl hterm, Finset.sum_ite_eq',
    if_pos (Finset.mem_range.2 hd), pow_succ']

theorem sub_mul_geometric (ha : a ≠ 0) : (X - C a⁻¹) * geometric a = C a ^ 6 * X ^ 6 - 1 := by
  have hfactor : (X - C a⁻¹) * C a = C a * X - 1 := by
    rw [sub_mul, ← C_mul, inv_mul_cancel₀ ha, C_1, mul_comm]
  rw [geometric, ← mul_assoc, hfactor, mul_geom_sum, mul_pow]

/-- In characteristic 2 the quotient by one root is, up to X^6, the locator times the root's sequence. -/
theorem coeff_mul_geometric [CharP F 2] (ha : a ≠ 0) (h : σ.eval a⁻¹ = 0) {d : Nat} (hd : d < 6) :
    (σ * geometric a).coeff d = (withoutRoot σ a).coeff d := by
  have hprod : σ * geometric a = withoutRoot σ a + withoutRoot σ a * C a ^ 6 * X ^ 6 := by
    conv_lhs => rw [← sub_mul_withoutRoot h, mul_right_comm, sub_mul_geometric ha, CharTwo.sub_eq_add]
    ring
  rw [hprod, coeff_add, coeff_mul_X_pow', if_neg (by omega), add_zero]

theorem injOn_inv (hinj : Set.InjOn x E) : Set.InjOn (fun k => (x k)⁻¹) (E : Set ℕ) :=
  fun _ hk _ hl h => hinj hk hl (inv_injective h)

section Forney

variable {S Ω : F[X]} (hσ : Generates S 6 E.card σ) (hinj : Set.InjOn x E) (hroot : ∀ k ∈ E, σ.eval (x k)⁻¹ = 0)
include hσ hinj hroot

/-- With as many roots as its length the locator has simple roots only. -/
theorem derivative_eval_ne_zero {k : ℕ} (hk : k ∈ E) : (derivative σ).eval (x k)⁻¹ ≠ 0 := by
  intro h
  rw [← eval_withoutRoot_self (hroot k hk)] at h
  refine hσ.ne_zero ?_
  have hzero : withoutRoot σ (x k) = 0 := by
    refine eq_zero_of_degree_lt_of_eval_index_eq_zero _ (injOn_inv hinj)
      (degree_withoutRoot_lt hσ.ne_zero hσ.natDegree_le) fun l hl => ?_
    by_cases hlk : l = k
    · exact hlk ▸ h
    · exact eval_withoutRoot_of_ne (hroot k hk) (hroot l hl) fun he => hlk (hinj hl hk he)
  rw [← sub_mul_withoutRoot (hroot k hk), hzero, mul_zero]

/-- The evaluator is the combination of the quotients whose weights Forney's formula gives: both have a degree below the
number of roots, and they agree at the roots. -/
theorem evaluator_eq_sum (hΩ : Ω.degree < E.card)
    (hy : ∀ k ∈ E, y k * (derivative σ).eval (x k)⁻¹ = Ω.eval (x k)⁻¹) :
    Ω = ∑ k ∈ E, C (y k) * withoutRoot σ (x k) := by
  refine eq_of_degrees_lt_of_eval_index_eq _ (injOn_inv hinj) hΩ ?_ fun l hl => ?_
  · refine mem_degreeLT.1 (Submodule.sum_mem _ fun k _ => ?_)
    rw [← smul_eq_C_mul]
    exact Submodule.smul_mem _ _ (mem_degreeLT.2 (degree_withoutRoot_lt hσ.ne_zero hσ.natDegree_le))
  · rw [eval_finsetSum, Finset.sum_eq_single_of_mem l hl fun k hk hkl => ?_]
    · rw [eval_mul, eval_C, eval_withoutRoot_self (hroot l hl), hy l hl]
    · rw [eval_mul, eval_withoutRoot_of_ne (hroot k hk) (hroot l hl) fun he => hkl (hinj hl hk he).symm, mul_zero]

/-- Forney's values at the roots of a locator that generates the syndromes account for all six of them. -/
theorem Generates.isPowerSum [CharP F 2] (hx : ∀ k ∈ E, x k ≠ 0) (hΩ : Ω.degree < E.card)
    (hΩS : ∀ d < 6, Ω.coeff d = (σ * S).coeff d)
    (hy : ∀ k ∈ E, y k * (derivative σ).eval (x k)⁻¹ = Ω.eval (x k)⁻¹) : IsPowerSum S E x y := by
  have hgeom : ∀ d < 6, (σ * (S - ∑ k ∈ E, C (y k) * geometric (x k))).coeff d = 0 := fun d hd => by
    rw [mul_sub, coeff_sub, ← hΩS d hd, evaluator_eq_sum hσ hinj hroot hΩ hy, Finset.mul_sum, finsetSum_coeff,
      finsetSum_coeff, sub_eq_zero]
    refine Finset.sum_congr rfl fun k hk => ?_
    rw [mul_left_comm, coeff_C_mul, coeff_C_mul, coeff_mul_geometric (hx k hk) (hroot k hk) hd]
  intro d hd
  have hdiff := coeff_eq_zero_of_coeff_mul_eq_zero hσ.coeff_zero hgeom d hd
  rw [coeff_sub, sub_eq_zero, finsetSum_coeff] at hdiff
  rw [hdiff]
  exact Finset.sum_congr rfl fun k _ => by rw [coeff_C_mul, geometric_coeff hd]

end Forney

end Recurrence

/-! ## Lists of symbols as polynomials (spec/40_gf16.md R108, R109) -/

section SymbolPolynomials

open Polynomial

variable {F : Type} [Field F] {φ : Sym → F}

theorem coeff_eq_zero_of_length_le {p : List Sym} {d : Nat} (h : p.length ≤ d) : coeff p d = 0 :=
  List.getD_eq_default _ _ h

theorem coeff_map_range (n : Nat) (f : Nat → Sym) (d : Nat) :
    coeff ((List.range n).map f) d = if d < n then f d else 0 := by
  by_cases hd : d < n
  · simp [coeff, List.getD_eq_getElem?_getD, hd]
  · rw [if_neg hd, coeff_eq_zero_of_length_le (by simpa using hd)]

theorem coeff_polyDeriv (p : List Sym) (d : Nat) :
    coeff (polyDeriv p) d = if d % 2 = 0 then coeff p (d + 1) else 0 := by
  rw [polyDeriv, coeff_map_range]
  by_cases hd : d < p.length - 1
  · rw [if_pos hd]
  · rw [if_neg hd, coeff_eq_zero_of_length_le (d := d + 1) (by omega), ite_self]

/-- The polynomial of a coefficient list, lowest degree first. -/
noncomputable def toPoly (φ : Sym → F) : List Sym → F[X]
  | [] => 0
  | c :: p => toPoly φ p * X + C (φ c)

section

variable (hφ : IsSymbolField F φ)
include hφ

theorem IsSymbolField.charTwo : CharP F 2 := by
  refine CharTwo.of_one_ne_zero_of_two_eq_zero one_ne_zero ?_
  have hone : gfAdd 1 1 = 0 := rfl
  rw [← one_add_one_eq_two, ← hφ.map_one, ← hφ.map_add, hone, hφ.map_zero]

theorem IsSymbolField.map_eq_zero {a : Sym} : φ a = 0 ↔ a = 0 := by
  rw [← hφ.map_zero, hφ.injective.eq_iff]

theorem IsSymbolField.map_div (a : Sym) {b : Sym} (hb : b ≠ 0) : φ (gfDiv a b) = φ a / φ b := by
  have hinv : φ b * φ (gfInv b) = 1 := by rw [← hφ.map_mul, gfMul_gfInv hb, hφ.map_one]
  rw [gfDiv, hφ.map_mul, eq_inv_of_mul_eq_one_right hinv, div_eq_mul_inv]

theorem IsSymbolField.map_gfSum (l : List Sym) : φ (gfSum l) = (l.map φ).sum := by
  induction l with
  | nil => exact hφ.map_zero
  | cons a l ih =>
    have hcons : gfSum (a :: l) = gfAdd a (gfSum l) := rfl
    rw [hcons, hφ.map_add, ih, List.map_cons, List.sum_cons]

theorem IsSymbolField.map_gfSum_range (n : Nat) (f : Nat → Sym) :
    φ (gfSum ((List.range n).map f)) = ∑ i ∈ Finset.range n, φ (f i) := by
  rw [hφ.map_gfSum, List.map_map]
  rfl

theorem toPoly_coeff (p : List Sym) (d : Nat) : (toPoly φ p).coeff d = φ (coeff p d) := by
  induction p generalizing d with
  | nil => exact hφ.map_zero.symm
  | cons c p ih =>
    cases d with
    | zero => simp [toPoly, coeff]
    | succ d => simpa [toPoly, coeff, coeff_C] using ih d

theorem toPoly_eval (p : List Sym) (x : Sym) : (toPoly φ p).eval (φ x) = φ (polyEval p x) := by
  induction p with
  | nil => exact eval_zero.trans hφ.map_zero.symm
  | cons c p ih =>
    have hcons : polyEval (c :: p) x = gfAdd (gfMul (polyEval p x) x) c := rfl
    rw [hcons, hφ.map_add, hφ.map_mul, toPoly, eval_add, eval_mul, eval_X, eval_C, ih]

theorem toPoly_natDegree_lt {p : List Sym} {n : Nat} (hn : 0 < n) (hp : p.length ≤ n) : (toPoly φ p).natDegree < n := by
  refine (Nat.lt_iff_le_pred hn).2 (natDegree_le_iff_coeff_eq_zero.2 fun d hd => ?_)
  rw [toPoly_coeff hφ, coeff_eq_zero_of_length_le (by omega), hφ.map_zero]

theorem toPoly_polyAdd (p q : List Sym) : toPoly φ (polyAdd p q) = toPoly φ p + toPoly φ q := by
  induction p, q using polyAdd.induct with
  | case1 q => simp [polyAdd, toPoly]
  | case2 p hp => simp [polyAdd, toPoly]
  | case3 a p b q ih =>
    simp only [polyAdd, toPoly, ih, hφ.map_add, C_add]
    ring

theorem toPoly_map_gfMul (c : Sym) (p : List Sym) : toPoly φ (p.map (gfMul c)) = C (φ c) * toPoly φ p := by
  induction p with
  | nil => simp [toPoly]
  | cons a p ih =>
    simp only [List.map_cons, toPoly, ih, hφ.map_mul, C_mul]
    ring

theorem toPoly_polyScaleShift (c : Sym) (m : Nat) (p : List Sym) :
    toPoly φ (polyScaleShift c m p) = C (φ c) * (X ^ m * toPoly φ p) := by
  induction m with
  | zero => simpa [polyScaleShift] using toPoly_map_gfMul hφ c p
  | succ m ih =>
    have hsucc : polyScaleShift c (m + 1) p = 0 :: polyScaleShift c m p := rfl
    rw [hsucc, toPoly, ih, hφ.map_zero, C_0]
    ring

/-- The coefficients of odd degree d of a derivative have the factor d + 1 = 0. -/
theorem toPoly_polyDeriv (p : List Sym) : toPoly φ (polyDeriv p) = derivative (toPoly φ p) := by
  have := hφ.charTwo
  ext d
  rw [coeff_derivative, toPoly_coeff hφ, toPoly_coeff hφ, coeff_polyDeriv, CharTwo.natCast_eq_ite]
  by_cases hd : Even d
  · rw [if_pos (Nat.even_iff.1 hd), if_pos hd, zero_add, mul_one]
  · rw [if_neg (mt Nat.even_iff.2 hd), if_neg hd, hφ.map_zero, CharTwo.add_self_eq_zero, mul_zero]

end

end SymbolPolynomials

/-! ## Berlekamp-Massey (spec/41_rs_codec.md R128, R129) -/

section BerlekampMassey

open Polynomial

/-- What holds of the registers before iteration n, for the syndromes `s`: Λ generates the first n syndromes and no shorter
recurrence generates all six; x^m·B has, from degree n + 1 - L on, the one discrepancy b at degree n, so that a multiple of
it repairs the next failure of Λ. -/
structure MasseyInv {F : Type} [Field F] (φ : Sym → F) (s : List Sym) (n : Nat) (st : Massey) : Prop where
  generates : Generates (toPoly φ s) n st.length (toPoly φ st.locator)
  length_le : st.length ≤ n
  minimal : ∀ len σ, Generates (toPoly φ s) 6 len σ → st.length ≤ len
  gap_pos : 0 < st.gap
  scale_ne_zero : st.scale ≠ 0
  repair_natDegree : (X ^ st.gap * toPoly φ st.previous).natDegree ≤ n + 1 - st.length
  repair_coeff : ∀ d, n + 1 - st.length ≤ d → d ≤ n →
    (X ^ st.gap * toPoly φ st.previous * toPoly φ s).coeff d = if d = n then φ st.scale else 0

variable {F : Type} [Field F] {φ : Sym → F} (hφ : IsSymbolField F φ) {s : List Sym} {n : Nat} {st : Massey}

/-- An iteration that keeps L, B and b moves the repair one degree up. -/
theorem MasseyInv.keep (h : MasseyInv φ s n st) {locator : List Sym}
    (hgen : Generates (toPoly φ s) (n + 1) st.length (toPoly φ locator)) :
    MasseyInv φ s (n + 1) { st with locator := locator, gap := st.gap + 1 } := by
  have hlen := h.length_le
  refine ⟨hgen, hlen.trans (Nat.le_succ n), h.minimal, Nat.succ_pos _, h.scale_ne_zero, ?_, fun d hd hdn => ?_⟩
  · simp only [pow_succ', mul_assoc]
    refine natDegree_mul_le.trans ?_
    have := h.repair_natDegree
    rw [natDegree_X]
    omega
  · obtain ⟨e, rfl⟩ : ∃ e, d = e + 1 := ⟨d - 1, by dsimp only at hd; omega⟩
    simp only [pow_succ', mul_assoc, coeff_X_mul] at *
    rw [← mul_assoc, h.repair_coeff e (by omega) (by omega)]
    simp only [Nat.add_right_cancel_iff]

include hφ

theorem map_discrepancy (h : MasseyInv φ s n st) :
    φ (discrepancy s n st) = (toPoly φ st.locator * toPoly φ s).coeff n := by
  rw [coeff_mul_eq_sum_range h.generates.natDegree_le, min_eq_right h.length_le, Finset.sum_range_succ', add_comm,
    h.generates.coeff_zero, one_mul, discrepancy, hφ.map_add, hφ.map_gfSum_range]
  simp only [hφ.map_mul, toPoly_coeff hφ, Nat.sub_zero]

/-- The multiple of x^m·B that the procedure adds repairs Λ, for every length that leaves room for both. -/
theorem MasseyInv.generates_update (h : MasseyInv φ s n st) {len : Nat} (h1 : st.length ≤ len)
    (h2 : n + 1 - st.length ≤ len) : Generates (toPoly φ s) (n + 1) len (toPoly φ
      (polyAdd st.locator (polyScaleShift (gfDiv (discrepancy s n st) st.scale) st.gap st.previous))) := by
  have := hφ.charTwo
  have hscale : φ st.scale ≠ 0 := mt hφ.map_eq_zero.1 h.scale_ne_zero
  rw [toPoly_polyAdd hφ, toPoly_polyScaleShift hφ, hφ.map_div _ h.scale_ne_zero]
  refine ⟨?_, ?_, fun d hd hdn => ?_⟩
  · rw [coeff_add, coeff_C_mul, coeff_X_pow_mul', if_neg (by have := h.gap_pos; omega), mul_zero, add_zero,
      h.generates.coeff_zero]
  · refine (natDegree_add_le _ _).trans (max_le (h.generates.natDegree_le.trans h1) ?_)
    exact (natDegree_C_mul_le _ _).trans (h.repair_natDegree.trans h2)
  · rw [add_mul, coeff_add, mul_assoc, coeff_C_mul, h.repair_coeff d (by omega) (by omega)]
    by_cases hdn' : d = n
    · rw [hdn', if_pos rfl, div_mul_cancel₀ _ hscale, map_discrepancy hφ h, CharTwo.add_self_eq_zero]
    · rw [if_neg hdn', mul_zero, add_zero, h.generates.coeff_mul d (by omega) (by omega)]

/-- An iteration that lengthens Λ takes the old Λ and its discrepancy for the next repair; by Massey's bound the new length
is needed. -/
theorem MasseyInv.lengthen (h : MasseyInv φ s n st) (hn : n < 6) (hδ : discrepancy s n st ≠ 0) (hshort : 2 * st.length ≤ n)
    {locator : List Sym} (hgen : Generates (toPoly φ s) (n + 1) (n + 1 - st.length) (toPoly φ locator)) :
    MasseyInv φ s (n + 1)
      { locator := locator, previous := st.locator, length := n + 1 - st.length, gap := 1,
        scale := discrepancy s n st } := by
  have hfail : (toPoly φ st.locator * toPoly φ s).coeff n ≠ 0 := by
    rw [← map_discrepancy hφ h]
    exact mt hφ.map_eq_zero.1 hδ
  refine ⟨hgen, Nat.sub_le _ _, fun len σ hσ => ?_, Nat.one_pos, hδ, ?_, fun d hd hdn => ?_⟩
  · have := h.generates.lt_add_length hfail hσ hn
    dsimp only
    omega
  · refine natDegree_mul_le.trans ?_
    have := h.generates.natDegree_le
    rw [pow_one, natDegree_X]
    dsimp only
    omega
  · dsimp only at hd ⊢
    obtain ⟨e, rfl⟩ : ∃ e, d = e + 1 := ⟨d - 1, by omega⟩
    rw [pow_one, mul_assoc, coeff_X_mul]
    by_cases he : e = n
    · rw [he, if_pos rfl, map_discrepancy hφ h]
    · rw [if_neg (by omega), h.generates.coeff_mul e (by omega) (by omega)]

theorem masseyStep_inv (h : MasseyInv φ s n st) (hn : n < 6) : MasseyInv φ s (n + 1) (masseyStep s st n) := by
  unfold masseyStep
  by_cases hδ : discrepancy s n st = 0
  · rw [if_pos hδ]
    refine h.keep ⟨h.generates.coeff_zero, h.generates.natDegree_le, fun d hd hdn => ?_⟩
    by_cases hd' : d = n
    · rw [hd', ← map_discrepancy hφ h, hδ, hφ.map_zero]
    · exact h.generates.coeff_mul d hd (by omega)
  · rw [if_neg hδ]
    by_cases hshort : 2 * st.length ≤ n
    · rw [if_pos hshort]
      exact h.lengthen hφ hn hδ hshort (h.generates_update hφ (by omega) le_rfl)
    · rw [if_neg hshort]
      exact h.keep (h.generates_update hφ le_rfl (by omega))

theorem massey_start_inv : MasseyInv φ s 0 { locator := [1], previous := [1], length := 0, gap := 1, scale := 1 } := by
  have hone : toPoly φ [1] = 1 := by rw [toPoly, toPoly, zero_mul, zero_add, hφ.map_one, C_1]
  refine ⟨⟨?_, ?_, fun d _ hd => absurd hd (Nat.not_lt_zero d)⟩, le_rfl, fun _ _ _ => Nat.zero_le _, Nat.one_pos, by decide,
    ?_, fun d hd hdn => absurd (hd.trans hdn) (by decide)⟩
  · rw [hone, coeff_one_zero]
  · rw [hone, natDegree_one]
  · rw [hone, pow_one, mul_one]
    exact natDegree_X.le

theorem berlekampMassey_inv : MasseyInv φ s 6 (berlekampMassey s) := by
  have h1 := masseyStep_inv hφ (massey_start_inv hφ (s := s)) (by decide)
  have h2 := masseyStep_inv hφ h1 (by decide)
  have h3 := masseyStep_inv hφ h2 (by decide)
  have h4 := masseyStep_inv hφ h3 (by decide)
  have h5 := masseyStep_inv hφ h4 (by decide)
  exact masseyStep_inv hφ h5 (by decide)

end BerlekampMassey

/-! ## Words as polynomials (spec/41_rs_codec.md R120, R126) -/

section Words

open Polynomial

/-! ### The symbol order -/

theorem degreeOf_injective (o : SymbolOrder) : Function.Injective fun j : Fin 15 => degreeOf o j := by
  cases o <;> decide

theorem image_degreeOf (o : SymbolOrder) : Finset.univ.image (fun j : Fin 15 => degreeOf o j) = Finset.range 15 := by
  cases o <;> decide

theorem exists_degreeOf_eq (o : SymbolOrder) {d : Nat} (hd : d < 15) : ∃ j : Fin 15, degreeOf o j = d := by
  rw [← Finset.mem_range, ← image_degreeOf o] at hd
  obtain ⟨j, -, hj⟩ := Finset.mem_image.1 hd
  exact ⟨j, hj⟩

theorem sum_degreeOf {M : Type} [AddCommMonoid M] (o : SymbolOrder) (f : Nat → M) :
    ∑ j : Fin 15, f (degreeOf o j) = ∑ d ∈ Finset.range 15, f d := by
  rw [← image_degreeOf o, Finset.sum_image (degreeOf_injective o).injOn]

theorem codePoly_length (o : SymbolOrder) (cw : Codeword) : (codePoly o cw).length = 15 := by
  cases o <;> simp [codePoly]

/-- In the code polynomial each symbol stands at its degree. -/
theorem coeff_codePoly (o : SymbolOrder) (cw : Codeword) (j : Fin 15) : coeff (codePoly o cw) (degreeOf o j) = cw[j] := by
  obtain ⟨j, hj⟩ := j
  rw [coeff, List.getD_eq_getElem?_getD]
  cases o with
  | highDegreeFirst =>
    have hidx : 15 - 1 - (14 - j) = j := by omega
    have hlt : 14 - j < 15 := by omega
    simp [codePoly, degreeOf, hlt, hidx]
  | lowDegreeFirst =>
    by_cases h9 : j < 9
    · have hright : (cw.toList.drop 9).length ≤ 6 + j := by simp
      have hidx : 6 + j - (cw.toList.drop 9).length = j := by simp
      rw [codePoly, degreeOf, if_pos h9, List.getElem?_append_right hright, hidx, List.getElem?_take_of_lt h9]
      simp [hj]
    · have hleft : j - 9 < (cw.toList.drop 9).length := by simp; omega
      have hidx : 9 + (j - 9) = j := by omega
      rw [codePoly, degreeOf, if_neg h9, List.getElem?_append_left hleft, List.getElem?_drop, hidx]
      simp [hj]

/-! ### The polynomial of a word -/

/-- The code polynomial C(X) of a word over the field of its symbols. -/
noncomputable def wordPoly {F : Type} [Field F] (φ : Sym → F) (o : SymbolOrder) (cw : Codeword) : F[X] :=
  toPoly φ (codePoly o cw)

variable {F : Type} [Field F] {φ : Sym → F} (hφ : IsSymbolField F φ) (o : SymbolOrder) (cw : Codeword)
include hφ

theorem wordPoly_coeff (j : Fin 15) : (wordPoly φ o cw).coeff (degreeOf o j) = φ cw[j] := by
  rw [wordPoly, toPoly_coeff hφ, coeff_codePoly]

theorem wordPoly_natDegree_lt : (wordPoly φ o cw).natDegree < 15 :=
  toPoly_natDegree_lt hφ (by decide) (codePoly_length o cw).le

/-- Polynomials of words are compared symbol by symbol. -/
theorem wordPoly_eq_iff {P : F[X]} (hP : P.natDegree < 15) :
    wordPoly φ o cw = P ↔ ∀ j : Fin 15, φ cw[j] = P.coeff (degreeOf o j) := by
  refine ⟨fun h j => by rw [← h, wordPoly_coeff hφ], fun h => ?_⟩
  ext d
  by_cases hd : d < 15
  · obtain ⟨j, rfl⟩ := exists_degreeOf_eq o hd
    rw [wordPoly_coeff hφ, h]
  · rw [coeff_eq_zero_of_natDegree_lt ((wordPoly_natDegree_lt hφ o cw).trans_le (by omega)),
      coeff_eq_zero_of_natDegree_lt (hP.trans_le (by omega))]

theorem wordPoly_injective : Function.Injective (wordPoly φ o) := by
  intro a b hab
  have hsym := (wordPoly_eq_iff hφ o a (wordPoly_natDegree_lt hφ o b)).1 hab
  refine Vector.ext fun j hj => hφ.injective ?_
  exact (hsym ⟨j, hj⟩).trans (wordPoly_coeff hφ o b ⟨j, hj⟩)

theorem wordPoly_eval (x : F) : (wordPoly φ o cw).eval x = ∑ j : Fin 15, φ cw[j] * x ^ degreeOf o j := by
  rw [eval_eq_sum_range' (wordPoly_natDegree_lt hφ o cw), ← sum_degreeOf o]
  simp only [wordPoly_coeff hφ]

theorem lt_of_mem_support_sub {o : SymbolOrder} {a b : Codeword} {d : Nat}
    (hd : d ∈ (wordPoly φ o a - wordPoly φ o b).support) : d < 15 :=
  (le_natDegree_of_mem_supp d hd).trans_lt ((natDegree_sub_le _ _).trans_lt
    (max_lt (wordPoly_natDegree_lt hφ o a) (wordPoly_natDegree_lt hφ o b)))

/-- The difference of two words' polynomials has a term for every symbol in which they differ. -/
theorem support_sub (a b : Codeword) : (wordPoly φ o a - wordPoly φ o b).support =
    (Finset.univ.filter fun j : Fin 15 => a[j] != b[j]).image fun j : Fin 15 => degreeOf o j := by
  have hmem : ∀ j : Fin 15, degreeOf o j ∈ (wordPoly φ o a - wordPoly φ o b).support ↔ a[j] ≠ b[j] := fun j => by
    rw [mem_support_iff, coeff_sub, wordPoly_coeff hφ, wordPoly_coeff hφ, sub_ne_zero, hφ.injective.ne_iff]
  ext d
  simp only [Finset.mem_image, Finset.mem_filter, Finset.mem_univ, true_and, bne_iff_ne]
  constructor
  · intro hd
    obtain ⟨j, rfl⟩ := exists_degreeOf_eq o (lt_of_mem_support_sub hφ hd)
    exact ⟨j, (hmem j).1 hd, rfl⟩
  · rintro ⟨j, hj, rfl⟩
    exact (hmem j).2 hj

theorem card_support_sub (a b : Codeword) :
    (wordPoly φ o a - wordPoly φ o b).support.card = symbolDistance a b := by
  rw [support_sub hφ, Finset.card_image_of_injective _ (degreeOf_injective o), symbolDistance,
    List.countP_eq_length_filter, ← List.toFinset_card_of_nodup ((List.nodup_finRange 15).filter _), List.toFinset_filter,
    List.toFinset_finRange]

/-! ### The powers of α -/

theorem IsSymbolField.map_alphaPow (n : Nat) : φ (alphaPow (n : Int)) = φ (alphaPow 1) ^ n := by
  induction n with
  | zero => exact hφ.map_one.trans (pow_zero _).symm
  | succ n ih =>
    rw [Int.natCast_add, Int.natCast_one, ← gfMul_alphaPow, hφ.map_mul, ih, pow_succ]

theorem IsSymbolField.map_alphaPow_neg (n : Nat) : φ (alphaPow (-(n : Int))) = (φ (alphaPow 1) ^ n)⁻¹ := by
  refine eq_inv_of_mul_eq_one_left ?_
  rw [← hφ.map_alphaPow, ← hφ.map_mul, gfMul_alphaPow, Int.add_left_neg]
  exact hφ.map_one

theorem IsSymbolField.alpha_pow_ne_zero (n : Nat) : φ (alphaPow 1) ^ n ≠ 0 := by
  rw [← hφ.map_alphaPow]
  exact mt hφ.map_eq_zero.1 (alphaPow_ne_zero _)

/-- The fifteen locators are different. -/
theorem IsSymbolField.alpha_pow_injOn {E : Finset ℕ} (hE : ∀ p ∈ E, p < 15) :
    Set.InjOn (fun p => φ (alphaPow 1) ^ p) (E : Set ℕ) := by
  intro p hp q hq h
  simp only [← hφ.map_alphaPow] at h
  have hlog := congrArg gfLog (hφ.injective h)
  have := hE p hp
  have := hE q hq
  rw [gfLog_alphaPow, gfLog_alphaPow] at hlog
  omega

/-! ### Syndromes -/

theorem map_syndrome (i : Nat) : φ (syndrome o cw i) = (wordPoly φ o cw).eval (φ (alphaPow 1) ^ i) := by
  rw [wordPoly_eval hφ, syndrome, hφ.map_gfSum, List.map_map, Fin.sum_univ_def]
  simp only [Function.comp_def, hφ.map_mul, hφ.map_alphaPow, pow_mul]

theorem isCodeword_iff :
    IsCodeword o cw ↔ ∀ i, 1 ≤ i → i ≤ 6 → (wordPoly φ o cw).eval (φ (alphaPow 1) ^ i) = 0 := by
  refine forall_congr' fun i => forall_congr' fun _ => forall_congr' fun _ => ?_
  rw [← hφ.map_alphaPow, wordPoly, toPoly_eval hφ, hφ.map_eq_zero]

omit hφ in
theorem syndromes_eq_map : syndromes o cw = (List.range 6).map fun d => syndrome o cw (d + 1) := rfl

theorem syndromes_coeff {d : Nat} (hd : d < 6) :
    (toPoly φ (syndromes o cw)).coeff d = (wordPoly φ o cw).eval (φ (alphaPow 1) ^ (d + 1)) := by
  rw [← map_syndrome hφ, toPoly_coeff hφ, syndromes_eq_map, coeff_map_range, if_pos hd]

theorem syndromes_eq_zero_iff : (∀ x ∈ syndromes o cw, x = 0) ↔ IsCodeword o cw := by
  rw [isCodeword_iff hφ, syndromes_eq_map]
  simp only [List.forall_mem_map, List.mem_range, ← map_syndrome hφ, hφ.map_eq_zero]
  refine ⟨fun h i h1 h6 => ?_, fun h d hd => h (d + 1) (by omega) (by omega)⟩
  obtain ⟨d, rfl⟩ : ∃ d, i = d + 1 := ⟨i - 1, by omega⟩
  exact h d (by omega)

end Words

/-! ## The decoder (spec/41_rs_codec.md R131 to R135) -/

section Decoder

open Polynomial

/-- No more roots than the degree: the inverses of the locators of `E` among them. -/
theorem Generates.card_le_natDegree {F : Type} [Field F] {S σ : F[X]} {n len : Nat} {E : Finset ℕ} {x : ℕ → F}
    (hσ : Generates S n len σ) (hinj : Set.InjOn x E) (hroot : ∀ k ∈ E, σ.eval (x k)⁻¹ = 0) : E.card ≤ σ.natDegree := by
  by_contra hlt
  refine hσ.ne_zero (eq_zero_of_degree_lt_of_eval_index_eq_zero _ (injOn_inv hinj) ?_ hroot)
  exact degree_le_natDegree.trans_lt (Nat.cast_lt.2 (not_le.1 hlt))

/-- The positions that the Chien search finds. -/
def errorPositions (locator : List Sym) : Finset ℕ := (chienSearch locator).toFinset

theorem card_errorPositions (locator : List Sym) : (errorPositions locator).card = (chienSearch locator).length :=
  List.toFinset_card_of_nodup (List.nodup_range.filter _)

theorem mem_errorPositions {locator : List Sym} {p : Nat} :
    p ∈ errorPositions locator ↔ p < 15 ∧ polyEval locator (alphaPow (-(p : Int))) = 0 := by
  simp only [errorPositions, List.mem_toFinset, chienSearch, List.mem_filter, List.mem_range, decide_eq_true_eq]

variable {F : Type} [Field F] {φ : Sym → F} (hφ : IsSymbolField F φ) {o : SymbolOrder} {cw : Codeword}

/-- The word with the values `y` at the degrees of `E`. -/
noncomputable def errorPoly (E : Finset ℕ) (y : ℕ → F) : F[X] := ∑ p ∈ E, C (y p) * X ^ p

theorem errorPoly_coeff (E : Finset ℕ) (y : ℕ → F) (d : Nat) : (errorPoly E y).coeff d = if d ∈ E then y d else 0 := by
  simp [errorPoly, finsetSum_coeff, coeff_X_pow]

theorem errorPoly_eval (E : Finset ℕ) (y : ℕ → F) (x : F) : (errorPoly E y).eval x = ∑ p ∈ E, y p * x ^ p := by
  simp [errorPoly, eval_finsetSum]

theorem errorPoly_natDegree_lt {E : Finset ℕ} (hE : ∀ p ∈ E, p < 15) (y : ℕ → F) : (errorPoly E y).natDegree < 15 := by
  refine Nat.lt_succ_iff.2 (natDegree_le_iff_coeff_eq_zero.2 fun d hd => ?_)
  rw [errorPoly_coeff, if_neg fun h => absurd (hE d h) (by omega)]

theorem card_support_errorPoly_le (E : Finset ℕ) (y : ℕ → F) : (errorPoly E y).support.card ≤ E.card := by
  refine Finset.card_le_card fun d hd => ?_
  by_contra hE
  rw [mem_support_iff, errorPoly_coeff, if_neg hE] at hd
  exact hd rfl

/-- The value of a polynomial at a power of α is a power sum of its coefficients. -/
theorem eval_alpha_pow (D : F[X]) (i : Nat) :
    D.eval (φ (alphaPow 1) ^ i) = ∑ p ∈ D.support, D.coeff p * (φ (alphaPow 1) ^ p) ^ i := by
  rw [eval_eq_sum, sum_def]
  simp only [← pow_mul, mul_comm i]

include hφ

theorem mem_errorPositions_iff_eval {locator : List Sym} {p : Nat} :
    p ∈ errorPositions locator ↔ p < 15 ∧ (toPoly φ locator).eval (φ (alphaPow 1) ^ p)⁻¹ = 0 := by
  rw [mem_errorPositions, ← hφ.map_alphaPow_neg, toPoly_eval hφ, hφ.map_eq_zero]

/-! ### The correction -/

theorem omega_coeff {s : List Sym} {st : Massey} (h : (toPoly φ st.locator).natDegree ≤ st.length) {d : Nat} (hd : d < 6) :
    (toPoly φ (omega s st)).coeff d = (toPoly φ st.locator * toPoly φ s).coeff d := by
  rw [toPoly_coeff hφ, omega, coeff_map_range, if_pos hd, hφ.map_gfSum_range, coeff_mul_eq_sum_range h]
  simp only [hφ.map_mul, toPoly_coeff hφ]

theorem omega_degree_lt {s : List Sym} {st : Massey} (h : Generates (toPoly φ s) 6 st.length (toPoly φ st.locator)) :
    (toPoly φ (omega s st)).degree < st.length := by
  refine (degree_lt_iff_coeff_zero _ _).2 fun d hd => ?_
  by_cases hd6 : d < 6
  · rw [omega_coeff hφ h.natDegree_le hd6, h.coeff_mul d hd hd6]
  · rw [toPoly_coeff hφ, omega, coeff_map_range, if_neg hd6, hφ.map_zero]

/-- When the search finds as many positions as the register is long, Forney's values there account for the syndromes. -/
theorem errorValue_isPowerSum {s : List Sym} {st : Massey} (h : Generates (toPoly φ s) 6 st.length (toPoly φ st.locator))
    (hcard : (errorPositions st.locator).card = st.length) :
    IsPowerSum (toPoly φ s) (errorPositions st.locator) (fun p => φ (alphaPow 1) ^ p) (fun p => φ (errorValue s st p)) := by
  have := hφ.charTwo
  have hinj := hφ.alpha_pow_injOn fun p (hp : p ∈ errorPositions st.locator) => (mem_errorPositions.1 hp).1
  have hroot := fun p (hp : p ∈ errorPositions st.locator) => ((mem_errorPositions_iff_eval hφ).1 hp).2
  rw [← hcard] at h
  refine h.isPowerSum hinj hroot (fun p _ => hφ.alpha_pow_ne_zero p) (Ω := toPoly φ (omega s st)) ?_ (fun d hd => ?_)
    fun p hp => ?_
  · rw [hcard] at h ⊢
    exact omega_degree_lt hφ h
  · exact omega_coeff hφ (hcard ▸ h.natDegree_le) hd
  · have hsimple := derivative_eval_ne_zero h hinj hroot hp
    rw [← hφ.map_alphaPow_neg, ← toPoly_polyDeriv hφ, toPoly_eval hφ] at hsimple ⊢
    rw [toPoly_eval hφ, errorValue, hφ.map_div _ (mt hφ.map_eq_zero.2 hsimple), div_mul_cancel₀ _ hsimple]

theorem wordPoly_correctSymbols (s : List Sym) (st : Massey) :
    wordPoly φ o (correctSymbols o s st (chienSearch st.locator) cw) =
      wordPoly φ o cw + errorPoly (errorPositions st.locator) (fun p => φ (errorValue s st p)) := by
  have hdeg := errorPoly_natDegree_lt (E := errorPositions st.locator) (fun p hp => (mem_errorPositions.1 hp).1)
    (fun p => φ (errorValue s st p))
  have hsum := (natDegree_add_le _ _).trans_lt (max_lt (wordPoly_natDegree_lt hφ o cw) hdeg)
  refine (wordPoly_eq_iff hφ o _ hsum).2 fun j => ?_
  have hmem : degreeOf o j ∈ errorPositions st.locator ↔ degreeOf o j ∈ chienSearch st.locator := List.mem_toFinset
  rw [coeff_add, wordPoly_coeff hφ, errorPoly_coeff, correctSymbols]
  by_cases hj : degreeOf o j ∈ chienSearch st.locator
  · rw [if_pos (hmem.2 hj), ← hφ.map_add]
    simp [hj]
  · rw [if_neg (mt hmem.1 hj), add_zero]
    simp [hj]

/-- What RSDEC answers is a codeword within three symbols (R135 ii). -/
theorem rsDecode_sound {cw' : Codeword} (h : rsDecode o cw = some cw') :
    IsCodeword o cw' ∧ symbolDistance cw cw' ≤ 3 := by
  have := hφ.charTwo
  rcases rsDecode_cases o cw with ⟨h0, hd⟩ | ⟨-, -, hd⟩ | ⟨-, hlen, hroots, hd⟩
  · obtain rfl : cw = cw' := Option.some_injective _ (hd.symm.trans h)
    refine ⟨(syndromes_eq_zero_iff hφ o cw).1 h0, ?_⟩
    rw [← card_support_sub hφ o, sub_self, support_zero, Finset.card_empty]
    exact Nat.zero_le 3
  · rw [hd] at h
    cases h
  · obtain rfl := Option.some_injective _ (hd.symm.trans h)
    have hgen := (berlekampMassey_inv hφ (s := syndromes o cw)).generates
    have hsum := errorValue_isPowerSum hφ hgen ((card_errorPositions _).trans hroots)
    constructor
    · refine (isCodeword_iff hφ o _).2 fun i h1 h6 => ?_
      obtain ⟨d, rfl⟩ : ∃ d, i = d + 1 := ⟨i - 1, by omega⟩
      rw [wordPoly_correctSymbols hφ, eval_add, ← syndromes_coeff hφ o cw (by omega), hsum d (by omega), errorPoly_eval]
      simp only [← pow_mul, mul_comm (d + 1)]
      exact CharTwo.add_self_eq_zero _
    · rw [← card_support_sub hφ o, wordPoly_correctSymbols hφ, sub_add_cancel_left, support_neg]
      exact (card_support_errorPoly_le _ _).trans ((card_errorPositions _).trans hroots ▸ hlen)

/-! ### Which words are decoded -/

/-- Two codewords that differ in at most six symbols are equal (R120). -/
theorem codeword_unique {a b : Codeword} (ha : IsCodeword o a) (hb : IsCodeword o b) (hdist : symbolDistance a b ≤ 6) :
    a = b := by
  refine wordPoly_injective hφ o (sub_eq_zero.1 ?_)
  rw [← card_support_sub hφ o] at hdist
  have hlt := fun p (hp : p ∈ (wordPoly φ o a - wordPoly φ o b).support) => lt_of_mem_support_sub hφ hp
  have heval : ∀ i, 1 ≤ i → i ≤ 6 → (wordPoly φ o a - wordPoly φ o b).eval (φ (alphaPow 1) ^ i) = 0 := fun i h1 h6 => by
    rw [eval_sub, (isCodeword_iff hφ o a).1 ha i h1 h6, (isCodeword_iff hφ o b).1 hb i h1 h6, sub_zero]
  generalize wordPoly φ o a - wordPoly φ o b = D at *
  have hzero : ∀ p ∈ D.support, D.coeff p * φ (alphaPow 1) ^ p = 0 := by
    refine eq_zero_of_sum_mul_pow_eq_zero (hφ.alpha_pow_injOn hlt) fun i hi => ?_
    rw [← heval (i + 1) (by omega) (by omega), eval_alpha_pow]
    exact Finset.sum_congr rfl fun p _ => by rw [pow_succ', mul_assoc]
  refine support_eq_empty.1 (Finset.eq_empty_of_forall_notMem fun p hp => ?_)
  exact mul_ne_zero (mem_support_iff.1 hp) (hφ.alpha_pow_ne_zero p) (hzero p hp)

theorem symbolDistance_triangle (r a b : Codeword) : symbolDistance a b ≤ symbolDistance r a + symbolDistance r b := by
  have o := SymbolOrder.highDegreeFirst
  have hsplit : wordPoly φ o a - wordPoly φ o b =
      -(wordPoly φ o r - wordPoly φ o a) + (wordPoly φ o r - wordPoly φ o b) := by ring
  rw [← card_support_sub hφ o a b, ← card_support_sub hφ o r a, ← card_support_sub hφ o r b, hsplit,
    ← support_neg (p := wordPoly φ o r - wordPoly φ o a)]
  exact (Finset.card_le_card support_add).trans (Finset.card_union_le _ _)

/-- The syndromes of a word are those of its difference from a codeword. -/
theorem syndromes_isPowerSum {c : Codeword} (hc : IsCodeword o c) :
    IsPowerSum (toPoly φ (syndromes o cw)) (wordPoly φ o cw - wordPoly φ o c).support (fun p => φ (alphaPow 1) ^ p)
      (wordPoly φ o cw - wordPoly φ o c).coeff := fun d hd => by
  rw [← eval_alpha_pow, eval_sub, (isCodeword_iff hφ o c).1 hc (d + 1) (by omega) (by omega), sub_zero,
    syndromes_coeff hφ o cw hd]

/-- Up to three errors: the register is no longer than their number, and the search finds every error and nothing else
(R135 i). -/
theorem rsDecode_ne_none {c : Codeword} (hc : IsCodeword o c) (hdist : symbolDistance cw c ≤ 3) : rsDecode o cw ≠ none := by
  have hsum := syndromes_isPowerSum hφ (cw := cw) hc
  have hlt := fun p (hp : p ∈ (wordPoly φ o cw - wordPoly φ o c).support) => lt_of_mem_support_sub hφ hp
  have hinv := berlekampMassey_inv hφ (s := syndromes o cw)
  rw [← card_support_sub hφ o] at hdist
  generalize wordPoly φ o cw - wordPoly φ o c = D at *
  have hne := fun p (_ : p ∈ D.support) => hφ.alpha_pow_ne_zero p
  have hlen := hinv.minimal _ _ (hsum.generates hne)
  have hroots := hsum.eval_eq_zero hne (hφ.alpha_pow_injOn hlt) (fun p => mem_support_iff.1) hinv.generates (by omega)
  have hfound := Finset.card_le_card fun p hp => (mem_errorPositions_iff_eval hφ).2 ⟨hlt p hp, hroots p hp⟩
  have hfew := hinv.generates.card_le_natDegree
    (hφ.alpha_pow_injOn fun p (hp : p ∈ errorPositions _) => (mem_errorPositions.1 hp).1)
    fun p hp => ((mem_errorPositions_iff_eval hφ).1 hp).2
  have hdeg := hinv.generates.natDegree_le
  rw [card_errorPositions] at hfound hfew
  intro hnone
  rcases rsDecode_cases o cw with ⟨-, hd⟩ | ⟨-, hfail, -⟩ | ⟨-, -, -, hd⟩
  · cases hnone.symm.trans hd
  · omega
  · cases hnone.symm.trans hd

/-- The one codeword within three symbols is what the decoder answers (R135 i). -/
theorem rsDecode_eq_some {c : Codeword} (hc : IsCodeword o c) (hdist : symbolDistance cw c ≤ 3) :
    rsDecode o cw = some c := by
  obtain ⟨cw', hd⟩ := Option.ne_none_iff_exists'.1 (rsDecode_ne_none hφ hc hdist)
  obtain ⟨hcode, hnear⟩ := rsDecode_sound hφ hd
  have := symbolDistance_triangle hφ cw cw' c
  rw [hd, codeword_unique hφ hcode hc (by omega)]

end Decoder

/-! ## The encoder (spec/41_rs_codec.md R123, R124) -/

section Encoder

variable {F : Type} [Field F] {φ : Sym → F} (hφ : IsSymbolField F φ)

/-- The value at `x` of the remainder in the register. -/
def registerValue (φ : Sym → F) (x : F) (b : List Sym) : F := ∑ i ∈ Finset.range 6, φ (coeff b i) * x ^ i

/-- The value of D(X)·X^6 at `x`, the data symbols given by falling degree. -/
def dataValue (φ : Sym → F) (x : F) (data : List Sym) : F := data.foldl (fun v d => v * x + φ d * x ^ 6) 0

theorem rsEncode_getElem (o : SymbolOrder) (cw : Codeword) (j : Fin 15) : (rsEncode o cw)[j] =
    if j.val < 9 then cw[j] else coeff (encoderRegister (dataByDegree o cw)) (degreeOf o j) := by
  simp [rsEncode]

theorem coeff_zero_cons (c : Sym) (p : List Sym) : coeff (c :: p) 0 = c := rfl

theorem coeff_succ_cons (c : Sym) (p : List Sym) (d : Nat) : coeff (c :: p) (d + 1) = coeff p d := rfl

include hφ

/-- At a root of the generator polynomial a step multiplies the remainder by x and adds d·x^6: what the feedback takes away
is a multiple of the generator. -/
theorem registerValue_encoderStep {x : F} (hx : (toPoly φ gpoly).eval x = 0) (b : List Sym) (d : Sym) :
    registerValue φ x (encoderStep b d) = registerValue φ x b * x + φ d * x ^ 6 := by
  have := hφ.charTwo
  have htwo : (2 : F) = 0 := CharTwo.two_eq_zero
  rw [Polynomial.eval_eq_sum_range' (toPoly_natDegree_lt hφ (n := 7) (by decide) (by decide))] at hx
  have hlead : φ (coeff gpoly 6) = 1 := hφ.map_one
  simp only [toPoly_coeff hφ, Finset.sum_range_succ, Finset.sum_range_zero, hlead] at hx
  have hfb : φ (gfAdd d (coeff b 5)) = φ d + φ (coeff b 5) := hφ.map_add _ _
  simp only [registerValue, Finset.sum_range_succ, Finset.sum_range_zero, encoderStep]
  generalize gfAdd d (coeff b 5) = fb at *
  simp only [coeff_zero_cons, coeff_succ_cons, hφ.map_add, hφ.map_mul]
  linear_combination φ fb * hx - φ fb * x ^ 6 * htwo + x ^ 6 * hfb

theorem registerValue_foldl {x : F} (hx : (toPoly φ gpoly).eval x = 0) (data : List Sym) (b : List Sym) :
    registerValue φ x (data.foldl encoderStep b) =
      data.foldl (fun v d => v * x + φ d * x ^ 6) (registerValue φ x b) := by
  induction data generalizing b with
  | nil => rfl
  | cons d data ih => rw [List.foldl_cons, List.foldl_cons, ih, registerValue_encoderStep hφ hx]

/-- At the roots of the generator polynomial the register holds D(X)·X^6. -/
theorem registerValue_encoderRegister {x : F} (hx : (toPoly φ gpoly).eval x = 0) (data : List Sym) :
    registerValue φ x (encoderRegister data) = dataValue φ x data := by
  have hzero : registerValue φ x [0, 0, 0, 0, 0, 0] = 0 := by
    simp only [registerValue, Finset.sum_range_succ, Finset.sum_range_zero, coeff_zero_cons, coeff_succ_cons, hφ.map_zero]
    ring
  rw [encoderRegister, registerValue_foldl hφ hx, hzero, dataValue]

/-- The encoded word is D(X)·X^6 + B(X) (R124). -/
theorem wordPoly_rsEncode_eval (o : SymbolOrder) (cw : Codeword) (x : F) : (wordPoly φ o (rsEncode o cw)).eval x =
    dataValue φ x (dataByDegree o cw) + registerValue φ x (encoderRegister (dataByDegree o cw)) := by
  rw [wordPoly_eval hφ, registerValue]
  simp only [rsEncode_getElem]
  generalize encoderRegister (dataByDegree o cw) = b
  cases o
  all_goals
    simp [Fin.sum_univ_succ, Finset.sum_range_succ, degreeOf, dataByDegree, dataValue]
    ring

theorem rsEncode_isCodeword (o : SymbolOrder) (cw : Codeword) : IsCodeword o (rsEncode o cw) := by
  have := hφ.charTwo
  refine (isCodeword_iff hφ o _).2 fun i h1 h6 => ?_
  have hx : (toPoly φ gpoly).eval (φ (alphaPow 1) ^ i) = 0 := by
    rw [← hφ.map_alphaPow, toPoly_eval hφ, gpoly_root h1 h6, hφ.map_zero]
  rw [wordPoly_rsEncode_eval hφ, registerValue_encoderRegister hφ hx, CharTwo.add_self_eq_zero]

end Encoder

/-! ## The commands -/

theorem rsEncode_data (o : SymbolOrder) (cw : Codeword) {j : Nat} (hj : j < 9) :
    (rsEncode o cw).toList[j]? = cw.toList[j]? := by
  have hget := rsEncode_getElem o cw ⟨j, by omega⟩
  rw [if_pos hj] at hget
  simpa [hj.trans (show 9 < 15 by decide)] using hget

/-- Settles O22: the register holds the remainder, and data and remainder together vanish at the generator's roots. -/
theorem rsencCompletesACodeword : Obligations.RsencCompletesACodeword := by
  obtain ⟨F, _, φ, hφ⟩ := exists_symbolField
  refine ⟨decodesExactly_single rfl rfl rfl eq_rsenc_of_opcode, fun s hc => ?_⟩
  exact ⟨rsEncode s.cfg.order s.cw, exec_rsenc hc, fun _ => rsEncode_data _ _, rsEncode_isCodeword hφ _ _⟩

/-- Settles O23: all syndromes are zero, the first case of the decoder. -/
theorem rsdecLeavesCodewordsUnchanged : Obligations.RsdecLeavesCodewordsUnchanged := by
  obtain ⟨F, _, φ, hφ⟩ := exists_symbolField
  intro s hc hcode
  have hd : rsDecode s.cfg.order s.cw = some s.cw := if_pos ((syndromes_eq_zero_iff hφ _ _).2 hcode)
  exact exec_rsdec_some hc hd

/-- Settles O25: status OK says that the decoder answered a word, and its answers are sound. -/
theorem rsdecOkIsANearbyCodeword : Obligations.RsdecOkIsANearbyCodeword := by
  obtain ⟨F, _, φ, hφ⟩ := exists_symbolField
  intro s t hexec hresp
  have hc : LegalConfig s.cfg := by
    by_contra hc
    rw [exec_refused_of_illegal _ ((configLegal_eq_false_iff _).2 hc)] at hexec
    cases hexec
  cases hd : rsDecode s.cfg.order s.cw with
  | some cw =>
    obtain rfl := Host.Outcome.next.inj ((exec_rsdec_some hc hd).symm.trans hexec)
    exact rsDecode_sound hφ hd
  | none =>
    obtain rfl := Host.Outcome.next.inj ((exec_rsdec_none hc hd).symm.trans hexec)
    cases hresp

/-- Settles O26: the decoder answers some codeword within three symbols, and there is only one. -/
theorem rsdecCorrectsThreeSymbolErrors : Obligations.RsdecCorrectsThreeSymbolErrors := by
  obtain ⟨F, _, φ, hφ⟩ := exists_symbolField
  exact fun _ _ hc hcode hdist => exec_rsdec_some hc (rsDecode_eq_some hφ hcode hdist)

end Sys2Proof.Machine

/-! The statements of spec/42_crc8.md. The words of the four commands and what each answers; then the fold as a map over
GF(2): a shift distributes over XOR and forgets nothing, so the fold does too. -/

namespace Sys2Proof

open Sys2Proof.Machine

/-! ## The words of the CRC commands -/

/-- Each of the four opcodes belongs to one command. -/
theorem crcCommand_of_opcode (i : Instr) :
    (i.opcode = 0x20 → i = .crcclr) ∧ (i.opcode = 0x21 → ∃ b, i = .crcupd b) ∧
      (i.opcode = 0x22 → i = .crcget) ∧ (i.opcode = 0x23 → i = .crcfr) := by
  cases i <;> simp [Instr.opcode]

theorem crcupd_decodesExactly : DecodesExactly 0x21 (fun w i =>
    ∃ imm : Byte, w = makeWord 0x21 0 (imm.setWidth 16) ∧ i = .crcupd imm) := by
  refine decodesExactly_of_words fun w i => ⟨?_, ?_⟩
  · rintro ⟨imm, rfl, rfl⟩
    exact ⟨rfl, rfl, rfl⟩
  · rintro ⟨hop, -, hw⟩
    obtain ⟨imm, rfl⟩ := (crcCommand_of_opcode i).2.1 hop
    exact ⟨imm, hw.symm, rfl⟩

end Sys2Proof

namespace Sys2Proof.Machine

/-! ## What the commands answer -/

section CrcAnswers

variable {s : State} (hc : LegalConfig s.cfg)
include hc

theorem exec_crcclr : exec .crcclr s = .next ((s.setCrc 0x00).reply .ok 0) :=
  commit_some ((configLegal_iff _).2 hc)

theorem exec_crcupd (imm : Byte) : exec (.crcupd imm) s = .next ((s.setCrc (crcUpdate s.crc imm)).reply .ok 0) :=
  commit_some ((configLegal_iff _).2 hc)

theorem exec_crcget : exec .crcget s = .next (s.reply .ok (zext s.crc)) :=
  commit_some ((configLegal_iff _).2 hc)

theorem exec_crcfr : exec .crcfr s = .next ((s.setCrc (frameCrc s.fr)).reply .ok (zext (frameCrc s.fr))) :=
  commit_some ((configLegal_iff _).2 hc)

end CrcAnswers

/-- Settles O28: the register is written by the one command and copied by the other. -/
theorem crcClearAndRead : Obligations.CrcClearAndRead :=
  ⟨decodesExactly_single rfl rfl rfl fun i => (crcCommand_of_opcode i).1,
    decodesExactly_single rfl rfl rfl fun i => (crcCommand_of_opcode i).2.2.1,
    fun _ hc => ⟨exec_crcclr hc, exec_crcget hc⟩⟩

/-- Settles O29: the machine's eight shifts are the statement's (`crcUpdate_eq`). -/
theorem crcUpdateFoldsOneByte : Obligations.CrcUpdateFoldsOneByte :=
  ⟨crcupd_decodesExactly, fun s imm hc => crcUpdate_eq s.crc imm ▸ exec_crcupd hc imm⟩

/-- Settles O30: the machine's frame CRC is the statement's (`frameCrc_eq`). -/
theorem frameCrcFoldsTheMessageBytes : Obligations.FrameCrcFoldsTheMessageBytes :=
  ⟨decodesExactly_single rfl rfl rfl fun i => (crcCommand_of_opcode i).2.2.2,
    fun s hc => frameCrc_eq s.fr ▸ exec_crcfr hc⟩

/-! ## The fold is linear over GF(2) (spec/42_crc8.md R155) -/

/-- A shift without the branch: the polynomial is added when bit 7 is set. -/
theorem crcShift_eq (x : Byte) : crcShift x = (x <<< 1) ^^^ (if x.getLsbD 7 then crcPoly else 0) := by
  unfold crcShift
  split <;> simp

theorem crcShift_xor (x y : Byte) : crcShift (x ^^^ y) = crcShift x ^^^ crcShift y := by
  have hpoly : ∀ a b : Bool,
      (if a ^^ b then crcPoly else 0) = (if a then crcPoly else 0) ^^^ (if b then crcPoly else 0) := by decide
  rw [crcShift_eq, crcShift_eq x, crcShift_eq y, BitVec.shiftLeft_xor_distrib, BitVec.getLsbD_xor, hpoly]
  ac_rfl

theorem crcShifts_xor (n : Nat) (x y : Byte) : crcShifts n (x ^^^ y) = crcShifts n x ^^^ crcShifts n y := by
  induction n generalizing x y with
  | zero => rfl
  | succ n ih => simp only [crcShifts, crcShift_xor, ih]

theorem crcUpdate_xor (c d a b : Byte) : crcUpdate (c ^^^ d) (a ^^^ b) = crcUpdate c a ^^^ crcUpdate d b := by
  have hswap : c ^^^ d ^^^ (a ^^^ b) = (c ^^^ a) ^^^ (d ^^^ b) := by ac_rfl
  rw [crcUpdate, hswap, crcShifts_xor, crcUpdate, crcUpdate]

theorem foldl_crcUpdate_xor (l : List (Byte × Byte)) (c d : Byte) :
    (l.map fun p => p.1 ^^^ p.2).foldl crcUpdate (c ^^^ d) =
      (l.map Prod.fst).foldl crcUpdate c ^^^ (l.map Prod.snd).foldl crcUpdate d := by
  induction l generalizing c d with
  | nil => rfl
  | cons p l ih => simp only [List.map_cons, List.foldl_cons, crcUpdate_xor, ih]

theorem crcOf_xor (l : List (Byte × Byte)) :
    crcOf (l.map fun p => p.1 ^^^ p.2) = crcOf (l.map Prod.fst) ^^^ crcOf (l.map Prod.snd) :=
  foldl_crcUpdate_xor l crcInit crcInit

/-! ## Running CRCUPD over a string -/

theorem runOk_cons {i : Instr} {is : List Instr} {s t : State} {d : Data} (h : exec i s = .next t)
    (hresp : t.resp = some ⟨.ok, d⟩) : runOk (i :: is) s = runOk is t := by
  simp [runOk, h, hresp]

theorem runOk_crcupd (bytes : List Byte) {s : State} (hc : LegalConfig s.cfg) :
    ∃ t, runOk (bytes.map .crcupd) s = some t ∧ t.crc = bytes.foldl crcUpdate s.crc := by
  induction bytes generalizing s with
  | nil => exact ⟨s, rfl, rfl⟩
  | cons b bytes ih =>
    rw [List.map_cons, runOk_cons (exec_crcupd hc b) rfl]
    exact ih (s := (s.setCrc (crcUpdate s.crc b)).reply .ok 0) hc

theorem runOk_crcclr_crcupd (bytes : List Byte) {s : State} (hc : LegalConfig s.cfg) :
    ∃ t, runOk (.crcclr :: bytes.map .crcupd) s = some t ∧ t.crc = crcOf bytes := by
  rw [runOk_cons (exec_crcclr hc) rfl]
  exact runOk_crcupd bytes (s := (s.setCrc 0x00).reply .ok 0) hc

/-- Settles O31: each run leaves the CRC of its string, and the fold is linear. -/
theorem crcIsLinear : Obligations.CrcIsLinear := by
  refine ⟨fun s l hc => ?_, by decide⟩
  obtain ⟨t, ht, htcrc⟩ := runOk_crcclr_crcupd (l.map fun p => p.1 ^^^ p.2) hc
  obtain ⟨u, hu, hucrc⟩ := runOk_crcclr_crcupd (l.map Prod.fst) hc
  obtain ⟨v, hv, hvcrc⟩ := runOk_crcclr_crcupd (l.map Prod.snd) hc
  rw [List.map_map] at ht hu hv
  refine ⟨t, u, v, ht, hu, hv, ?_, htcrc, hucrc, hvcrc⟩
  rw [htcrc, hucrc, hvcrc, crcOf_xor]

/-! ## The fold forgets nothing -/

/-- The polynomial's constant term marks in bit 0 whether it was added, so a shift sends no other byte to 0. -/
theorem crcShift_eq_zero {x : Byte} (h : crcShift x = 0) : x = 0 := by
  have hbit (i : Nat) : (crcShift x).getLsbD i = false := by simp [h]
  cases htop : x.getLsbD 7 with
  | true =>
    have hlow := hbit 0
    rw [crcShift_eq, htop] at hlow
    simp [crcPoly] at hlow
  | false =>
    rw [crcShift_eq, htop] at hbit
    apply BitVec.eq_of_getLsbD_eq
    intro i hi
    obtain rfl | hi7 : i = 7 ∨ i < 7 := by omega
    · simpa using htop
    · simpa [hi, Nat.succ_lt_succ hi7] using hbit (i + 1)

theorem crcShift_injective : Function.Injective crcShift := fun x y h => by
  have hzero : crcShift (x ^^^ y) = 0 := by rw [crcShift_xor, h]; exact BitVec.xor_self
  exact BitVec.xor_eq_zero_iff.1 (crcShift_eq_zero hzero)

theorem crcShifts_injective (n : Nat) : Function.Injective (crcShifts n) := by
  induction n with
  | zero => exact Function.injective_id
  | succ n ih => exact ih.comp crcShift_injective

theorem crcUpdate_left_injective (b : Byte) : Function.Injective fun c => crcUpdate c b :=
  (crcShifts_injective 8).comp fun _ _ => (BitVec.xor_left_inj b).1

theorem crcUpdate_right_injective (c : Byte) : Function.Injective (crcUpdate c) :=
  (crcShifts_injective 8).comp fun _ _ => (BitVec.xor_right_inj c).1

theorem foldl_crcUpdate_injective (bytes : List Byte) : Function.Injective fun c => bytes.foldl crcUpdate c := by
  induction bytes with
  | nil => exact Function.injective_id
  | cons b bytes ih => exact ih.comp (crcUpdate_left_injective b)

/-- Up to the changed byte the registers agree, that byte sets them apart, and the bytes after it keep them so. -/
theorem crcOf_set_ne {bytes : List Byte} {k : Nat} (hk : k < bytes.length) {b : Byte} (hb : b ≠ bytes[k]) :
    crcOf (bytes.set k b) ≠ crcOf bytes := by
  have hsplit : bytes = bytes.take k ++ bytes[k] :: bytes.drop (k + 1) := by simp
  intro h
  rw [List.set_eq_take_append_cons_drop, if_pos hk] at h
  conv_rhs at h => rw [hsplit]
  simp only [crcOf, List.foldl_append, List.foldl_cons] at h
  exact hb (crcUpdate_right_injective _ (foldl_crcUpdate_injective _ h))

/-! ## A flipped frame bit -/

theorem frameBit_eq (f : Frame) {n : Nat} (hn : n < 96) : frameBit f n = f[n / 8].getLsbD (7 - n % 8) := by
  have hk : n / 8 < 12 := by omega
  simp [frameBit, hk]

/-- A byte of a frame is its eight frame bits. -/
theorem frameByte_eq {f g : Frame} {k : Nat} (hk : k < 12)
    (h : ∀ m, m < 96 → m / 8 = k → frameBit f m = frameBit g m) : f[k] = g[k] := by
  apply BitVec.eq_of_getLsbD_eq
  intro i hi
  have hm : 8 * k + (7 - i) < 96 := by omega
  have hdiv : (8 * k + (7 - i)) / 8 = k := by omega
  have hmod : 7 - (8 * k + (7 - i)) % 8 = i := by omega
  have hbit := h _ hm hdiv
  rw [frameBit_eq f hm, frameBit_eq g hm] at hbit
  simpa only [hdiv, hmod] using hbit

/-- Frames that differ in bit n alone differ in byte n / 8 alone. -/
theorem frame_eq_set_of_bit_flip {f g : Frame} {n : Nat} (hn : n < 96) (hflip : frameBit g n = !frameBit f n)
    (hsame : ∀ m, m < 96 → m ≠ n → frameBit g m = frameBit f m) :
    ∃ b, b ≠ f[n / 8] ∧ g = f.set (n / 8) b := by
  refine ⟨g[n / 8], fun h => ?_, Vector.ext fun k hk => ?_⟩
  · rw [frameBit_eq g hn, frameBit_eq f hn, h] at hflip
    exact (Bool.eq_not_self _).1 hflip
  · rw [Vector.getElem_set]
    split
    next hkn => subst hkn; rfl
    next hkn => exact frameByte_eq hk fun m hm hmk => hsame m hm fun hmn => hkn (hmn ▸ hmk)

theorem messageBytes_set (f : Frame) {k : Nat} (hk : k < 5) (b : Byte) :
    messageBytes (f.set (3 + k) b) = (messageBytes f).set k b := by
  interval_cases k <;> simp [messageBytes]

theorem messageBytes_getElem (f : Frame) {k : Nat} (hk : k < 5) : (messageBytes f)[k]'hk = f[3 + k] := by
  interval_cases k <;> rfl

theorem frameCrc_ne_of_bit_flip {f g : Frame} {n : Nat} (hlo : 24 ≤ n) (hhi : n < 64)
    (hflip : frameBit g n = !frameBit f n) (hsame : ∀ m, m < 96 → m ≠ n → frameBit g m = frameBit f m) :
    frameCrc g ≠ frameCrc f := by
  obtain ⟨b, hb, rfl⟩ := frame_eq_set_of_bit_flip (by omega) hflip hsame
  obtain ⟨k, hk, hbyte⟩ : ∃ k, k < 5 ∧ n / 8 = 3 + k := ⟨n / 8 - 3, by omega, by omega⟩
  simp only [hbyte, ← messageBytes_getElem f hk] at hb ⊢
  rw [frameCrc, messageBytes_set f hk b]
  exact crcOf_set_ne hk hb

theorem zext_byte_injective : Function.Injective (zext : Byte → Data) := fun a b h => by
  have hnat := congrArg BitVec.toNat h
  rw [zext, zext, BitVec.toNat_setWidth_of_le (by decide), BitVec.toNat_setWidth_of_le (by decide)] at hnat
  exact BitVec.eq_of_toNat_eq hnat

/-- Settles O32: the two frames differ in one message byte, and CRCFR answers the register it leaves. -/
theorem singleBitFlipChangesTheCrc : Obligations.SingleBitFlipChangesTheCrc := by
  intro s t n hs ht hlo hhi hflip hsame
  have hne : frameCrc s.fr ≠ frameCrc t.fr := (frameCrc_ne_of_bit_flip hlo hhi hflip hsame).symm
  refine ⟨_, _, exec_crcfr hs, exec_crcfr ht, hne, fun h => hne (zext_byte_injective ?_)⟩
  exact congrArg Response.data (Option.some.inj h)

end Sys2Proof.Machine

/-! The statements of spec/43_window_sync.md. The words of the four window commands and what each answers; then the append and
the correlator on the arrays, and what both leave of a window of pure noise. -/

namespace Sys2Proof

open Sys2Proof.Machine

/-! ## The words of the window commands -/

/-- The words of an opcode whose commands are those of one family, all well formed. -/
theorem decodesExactly_family {α : Type} {op : BitVec 8} {listed : Word → Instr → Prop} (command : α → Instr)
    (hop : ∀ x, (command x).opcode = op) (hwf : ∀ x, (command x).wellFormed = true)
    (honly : ∀ i : Instr, i.opcode = op → ∃ x, i = command x)
    (hlisted : ∀ w i, listed w i ↔ ∃ x, w = encode (command x) ∧ i = command x) : DecodesExactly op listed := by
  refine decodesExactly_of_words fun w i => (hlisted w i).trans ⟨?_, ?_⟩
  · rintro ⟨x, rfl, rfl⟩
    exact ⟨hop x, hwf x, rfl⟩
  · rintro ⟨hi, -, hw⟩
    obtain ⟨x, rfl⟩ := honly i hi
    exact ⟨x, hw.symm, rfl⟩

/-- Each of the four opcodes belongs to one command. -/
theorem windowCommand_of_opcode (i : Instr) :
    (i.opcode = 0x30 → ∃ v, i = .bufpush v) ∧ (i.opcode = 0x31 → i = .corr) ∧
      (i.opcode = 0x32 → ∃ x : WindowArray × BitVec 16, i = .rdbuf x.1 x.2) ∧
      (i.opcode = 0x33 → ∃ sel, i = .rdst sel) := by
  cases i <;> simp [Instr.opcode]

theorem WindowArray.eq_code_iff {a : BitVec 8} {sel : WindowArray} :
    a = sel.code ↔ a = 0 ∧ sel = .smp ∨ a = 1 ∧ sel = .flg ∨ a = 2 ∧ sel = .idx := by
  cases sel <;> simp [WindowArray.code]

theorem Scalar.eq_code_iff {a : BitVec 8} {sel : Scalar} :
    a = sel.code ↔ a = 0 ∧ sel = .ms ∨ a = 1 ∧ sel = .awaitingSync ∨ a = 2 ∧ sel = .cnt ∨ a = 3 ∧ sel = .bufferFull ∨
      a = 4 ∧ sel = .spb ∨ a = 5 ∧ sel = .halfWidth ∨ a = 6 ∧ sel = .len := by
  cases sel <;> simp [Scalar.code]

theorem bufpush_decodesExactly :
    DecodesExactly 0x30 (fun w i => ∃ v : Sample, w = makeWord 0x30 0 v ∧ i = .bufpush v) :=
  decodesExactly_family .bufpush (fun _ => rfl) (fun _ => rfl) (fun i => (windowCommand_of_opcode i).1)
    fun _ _ => Iff.rfl

theorem corr_decodesExactly : DecodesExactly 0x31 (fun w i => w = 0x31000000 ∧ i = .corr) :=
  decodesExactly_single rfl rfl rfl fun i => (windowCommand_of_opcode i).2.1

theorem rdbuf_decodesExactly : DecodesExactly 0x32 (fun w i => ∃ (pos : BitVec 16) (a : BitVec 8) (sel : WindowArray),
    (a = 0 ∧ sel = .smp ∨ a = 1 ∧ sel = .flg ∨ a = 2 ∧ sel = .idx) ∧
      w = makeWord 0x32 a pos ∧ i = .rdbuf sel pos) := by
  refine decodesExactly_family (fun x : WindowArray × BitVec 16 => .rdbuf x.1 x.2) (fun _ => rfl) (fun _ => rfl)
    (fun i => (windowCommand_of_opcode i).2.2.1) fun w i => ?_
  simp only [← WindowArray.eq_code_iff]
  constructor
  · rintro ⟨pos, _, sel, rfl, hw, hi⟩
    exact ⟨(sel, pos), hw, hi⟩
  · rintro ⟨⟨sel, pos⟩, hw, hi⟩
    exact ⟨pos, sel.code, sel, rfl, hw, hi⟩

theorem rdst_decodesExactly : DecodesExactly 0x33 (fun w i => ∃ (a : BitVec 8) (sel : Scalar),
    (a = 0 ∧ sel = .ms ∨ a = 1 ∧ sel = .awaitingSync ∨ a = 2 ∧ sel = .cnt ∨ a = 3 ∧ sel = .bufferFull ∨
      a = 4 ∧ sel = .spb ∨ a = 5 ∧ sel = .halfWidth ∨ a = 6 ∧ sel = .len) ∧
      w = makeWord 0x33 a 0 ∧ i = .rdst sel) := by
  refine decodesExactly_family .rdst (fun _ => rfl) (fun _ => rfl) (fun i => (windowCommand_of_opcode i).2.2.2)
    fun w i => ?_
  simp only [← Scalar.eq_code_iff]
  constructor
  · rintro ⟨_, sel, rfl, hw, hi⟩
    exact ⟨sel, hw, hi⟩
  · rintro ⟨sel, hw, hi⟩
    exact ⟨sel.code, sel, rfl, hw, hi⟩

end Sys2Proof

namespace Sys2Proof.Machine

/-! ## What the commands answer -/

theorem boolData_eq (b : Bool) : boolData b = if b then 1 else 0 := by
  cases b <;> rfl

theorem boolData_bufferFull (s : State) : boolData (bufferFull s) = if s.ms = 0 then 1 else 0 := by
  simp only [boolData_eq, bufferFull, beq_iff_eq]

theorem boolData_bufferFull_bufpush (s : State) (v : Sample) :
    boolData (bufferFull (s.bufpush v)) = if s.ms ≤ 1 then 1 else 0 := by
  simp only [boolData_bufferFull, State.bufpush_ms, Nat.sub_eq_zero_iff_le]

section WindowAnswers

variable {s : State} (hc : LegalConfig s.cfg)
include hc

theorem exec_bufpush (v : Sample) :
    exec (.bufpush v) s = .next ((s.bufpush v).reply .ok (boolData (bufferFull (s.bufpush v)))) :=
  commit_some ((configLegal_iff _).2 hc)

theorem exec_corr {t : State} {m : Bool} (h : s.corr = some (t, m)) :
    exec .corr s = .next (t.reply .ok (boolData m)) := by
  simp only [exec, execCorr, h]
  exact commit_some ((configLegal_iff _).2 hc)

theorem exec_rdbuf {sel : WindowArray} {pos : BitVec 16} {d : Data} (hpos : positionOf pos < s.cfg.len)
    (h : windowData s sel (positionOf pos) = some d) : exec (.rdbuf sel pos) s = .next (s.reply .ok d) := by
  simp only [exec, execRdbuf, if_pos hpos, h]
  exact commit_some ((configLegal_iff _).2 hc)

theorem exec_rdbuf_illegal {pos : BitVec 16} (hpos : s.cfg.len ≤ positionOf pos) (sel : WindowArray) :
    exec (.rdbuf sel pos) s = .next s.illegal := by
  have hbeyond : ¬ positionOf pos < s.cfg.len := Nat.not_lt.2 hpos
  simp only [exec, execRdbuf, if_neg hbeyond]
  exact commit_some ((configLegal_iff _).2 hc)

theorem exec_rdst (sel : Scalar) : exec (.rdst sel) s = .next (s.reply .ok (scalarData s sel)) :=
  commit_some ((configLegal_iff _).2 hc)

theorem exec_push {v : Sample} {r : State × List Event} (h : s.push v = some r) :
    exec (.push v) s = .next (r.1.replyWith .ok (boolData (bufferFull r.1)) r.2) := by
  simp only [exec, execPush, h]
  exact commit_some ((configLegal_iff _).2 hc)

end WindowAnswers

/-! ## BUFPUSH (spec/43_window_sync.md R161) -/

section ShiftIn

variable {α : Type} {m n : Nat} {l : List α} (hl : l.length = n) (hm : m ≤ n) (h0 : 0 < n)
include hl hm h0

theorem shiftIn_getElem?_last (x : α) : (shiftIn m x l)[n - 1]? = some x := by
  subst hl
  rw [shiftIn_getElem? hm h0, if_pos (Nat.sub_add_cancel h0)]

theorem shiftIn_getElem?_live (x : α) {p : Nat} (hp : m ≤ p) (h1 : 1 ≤ p) (hlt : p < n) :
    (shiftIn m x l)[p - 1]? = l[p]? := by
  subst hl
  rw [shiftIn_getElem? hm h0, Nat.sub_add_cancel h1, if_neg hlt.ne, if_neg (Nat.not_lt.2 hp)]

theorem shiftIn_getElem?_below (x : α) {p : Nat} (hp : p + 1 < m) : (shiftIn m x l)[p]? = l[p]? := by
  subst hl
  rw [shiftIn_getElem? hm h0, if_neg (Nat.lt_of_lt_of_le hp hm).ne, if_pos hp]

end ShiftIn

/-- Settles O33: the three arrays are shifted alike, each by the law of `shiftIn` for the position. -/
theorem bufpushShiftsTheWindow : Obligations.BufpushShiftsTheWindow := by
  refine ⟨bufpush_decodesExactly, fun s v hs => ⟨(s.bufpush v).smp, (s.bufpush v).flg, (s.bufpush v).idx, ?_⟩⟩
  have hexec := exec_bufpush hs.config v
  rw [boolData_bufferFull_bufpush] at hexec
  obtain ⟨hsmp', hflg', hidx'⟩ := bufpush_wf hs v
  obtain ⟨hsmp, hflg, hidx⟩ := hs.window
  have hms := hs.ms_le
  have hlen : 0 < s.cfg.len := Nat.lt_of_lt_of_le (by decide) hs.config.len_ge
  refine ⟨hexec, hsmp', hflg', hidx', shiftIn_getElem?_last hsmp hms hlen v,
    shiftIn_getElem?_last hflg hms hlen false, shiftIn_getElem?_last hidx hms hlen s.cnt, ?live, ?below⟩
  case live =>
    exact fun p hp h1 hlt => ⟨shiftIn_getElem?_live hsmp hms hlen v hp h1 hlt,
      shiftIn_getElem?_live hflg hms hlen false hp h1 hlt, shiftIn_getElem?_live hidx hms hlen s.cnt hp h1 hlt⟩
  case below =>
    exact fun p hp => ⟨shiftIn_getElem?_below hsmp hms hlen v hp, shiftIn_getElem?_below hflg hms hlen false hp,
      shiftIn_getElem?_below hidx hms hlen s.cnt hp⟩

/-! ## CORR (spec/43_window_sync.md R164, R166) -/

/-- Settles O34: the machine's taps are the statement's (`tapMatches_iff`). -/
theorem corrStoresTheSyncMatch : Obligations.CorrStoresTheSyncMatch := by
  refine ⟨corr_decodesExactly, fun s hs => ?_⟩
  obtain ⟨m, hcorr, hmatch⟩ := corr_spec hs
  have hexec := exec_corr hs.config hcorr
  rw [boolData_eq] at hexec
  refine ⟨m, hexec, hmatch.trans ?_⟩
  exact forall₂_congr fun k hk => exists_congr fun v => and_congr_right' (tapMatches_iff hk)

/-! ## RDBUF and RDST (spec/43_window_sync.md R170, R171) -/

/-- Settles O35: inside the window each array has an element to answer, beyond it RDBUF is refused. -/
theorem rdbufReadsOneElement : Obligations.RdbufReadsOneElement := by
  refine ⟨rdbuf_decodesExactly, fun s pos hs => ⟨fun hpos => ?_, fun hpos => exec_rdbuf_illegal hs.config hpos⟩⟩
  obtain ⟨⟨v, hv⟩, ⟨b, hb⟩, ⟨n, hn⟩⟩ := hs.window.read hpos
  have hsmp : windowData s .smp pos.toNat = some (zext v) := by rw [windowData, hv, Option.map_some]
  have hflg : windowData s .flg pos.toNat = some (if b then 1 else 0) := by
    rw [windowData, hb, Option.map_some, boolData_eq]
  have hidx : windowData s .idx pos.toNat = some (zext n) := by rw [windowData, hn, Option.map_some]
  exact ⟨⟨v, hv, exec_rdbuf hs.config hpos hsmp⟩, ⟨b, hb, exec_rdbuf hs.config hpos hflg⟩,
    ⟨n, hn, exec_rdbuf hs.config hpos hidx⟩⟩

/-- Settles O36: one answer a selector. -/
theorem rdstReadsOneScalar : Obligations.RdstReadsOneScalar := by
  refine ⟨rdst_decodesExactly, fun s hc => ?_⟩
  have hsync := exec_rdst hc .awaitingSync
  have hfull := exec_rdst hc .bufferFull
  rw [scalarData, boolData_eq] at hsync
  rw [scalarData, boolData_bufferFull] at hfull
  exact ⟨exec_rdst hc .ms, hsync, exec_rdst hc .cnt, hfull, exec_rdst hc .spb, exec_rdst hc .halfWidth,
    exec_rdst hc .len⟩

/-! ## Pure noise (spec/43_window_sync.md R168; spec/46_pipeline.md R242 b) -/

/-- An append brings no element but the new one. -/
theorem eq_or_getElem?_of_shiftIn {α : Type} {m p : Nat} {x y : α} {l : List α} (h : (shiftIn m x l)[p]? = some y) :
    y = x ∨ ∃ q : Nat, l[q]? = some y := by
  have hmem : y ∈ l.take (m - 1) ++ l.drop (max m 1) ++ [x] := List.mem_of_getElem? h
  rw [List.mem_append, List.mem_append, List.mem_singleton] at hmem
  rcases hmem with (htake | hdrop) | rfl
  · exact .inr (List.mem_iff_getElem?.1 (List.mem_of_mem_take htake))
  · exact .inr (List.mem_iff_getElem?.1 (List.mem_of_mem_drop hdrop))
  · exact .inl rfl

namespace Quiet

variable {s : State} (hq : Quiet s)
include hq

theorem bufpush {v : Sample} (hv : ¬ OutOfBand s.cfg v) : Quiet (s.bufpush v) where
  samples p w hw := by
    rcases eq_or_getElem?_of_shiftIn hw with rfl | ⟨q, hold⟩
    · exact hv
    · exact hq.samples q w hold
  flags p hp := by
    rcases eq_or_getElem?_of_shiftIn hp with hnew | ⟨q, hold⟩
    · cases hnew
    · exact hq.flags q hold
  searching := hq.searching

/-- The newest sample is tap 0, and is in band: no match. -/
theorem corr_eq (hs : Inv s) : s.corr = some (s.setFlg (s.flg.set (tapPosition s.cfg 15) false), false) := by
  obtain ⟨m, hcorr, hmatch⟩ := corr_spec hs
  have hm : m = false := by
    rw [← Bool.not_eq_true, hmatch]
    intro htaps
    obtain ⟨w, hw, htap⟩ := htaps 0 (by decide)
    exact hq.samples _ w hw ((tapMatches_iff (by decide)).1 htap).1
  rw [hcorr, hm]

theorem setFlg_false (p : Nat) : Quiet (s.setFlg (s.flg.set p false)) where
  samples := hq.samples
  flags q hflag := by
    rw [State.setFlg_flg, List.getElem?_set] at hflag
    split at hflag
    · split at hflag <;> simp at hflag
    · exact hq.flags q hflag
  searching := hq.searching

theorem setMs (p : Nat) : Quiet (s.setMs p) := ⟨hq.samples, hq.flags, hq.searching⟩

theorem replyWith (st : Status) (d : Data) (es : List Event) : Quiet (s.replyWith st d es) :=
  ⟨hq.samples, hq.flags, hq.searching⟩

/-- With no flag to find, the search leaves MS at its limit. -/
theorem searchSync_eq : searchSync s = some (s.setMs (s.cfg.len - 15 * s.cfg.spb)) := by
  have hnone : firstFlag s (s.cfg.len - 15 * s.cfg.spb) = none := by
    rw [Option.eq_none_iff_forall_ne_some]
    intro p hp
    obtain ⟨-, -, hflag, -⟩ := firstFlag_some hp
    exact hq.flags p hflag
  simp only [searchSync, hq.searching, State.lookup, hnone, if_true]

/-- No frame is taken while the sequencer searches. -/
theorem takeFrame_eq : takeFrame s = some (s, []) := by
  have hready : frameReady s = false := by rw [frameReady, hq.searching]; rfl
  rw [takeFrame, hready]
  rfl

/-- The append brings no flag, CORR none either, the search finds none, and no frame is taken. -/
theorem push_eq (hs : Inv s) {v : Sample} (hv : ¬ OutOfBand s.cfg v) :
    ∃ t, s.push v = some (t, []) ∧ Quiet t ∧ t.ms = s.cfg.len - 15 * s.cfg.spb := by
  have hpushed := hq.bufpush hv
  have hcorr := hpushed.corr_eq (bufpush_inv hs v)
  have hflagged := hpushed.setFlg_false (tapPosition (s.bufpush v).cfg 15)
  have hsearch := hflagged.searchSync_eq
  refine ⟨_, ?_, hflagged.setMs _, rfl⟩
  simp only [State.push, hcorr, hsearch]
  exact (hflagged.setMs _).takeFrame_eq

end Quiet

/-- Settles O57: PUSH keeps the window quiet (`Quiet.push_eq`) and reports no event. -/
theorem noiseNeverFiresAnEvent : Obligations.NoiseNeverFiresAnEvent := by
  intro s v hs hq hv
  obtain ⟨t, hpush, hquiet, hms⟩ := hq.push_eq hs hv
  exact ⟨_, exec_push hs.config hpush, hquiet.replyWith _ _ _, rfl, hms⟩

end Sys2Proof.Machine

/-! The statements of spec/44_extract.md. The words of the three commands and what each answers; then the flag scan and the
sync check of LOOKUP, the layout of a reader's response, and the chain of byte reads that fills FR. -/

namespace Sys2Proof

open Sys2Proof.Machine

/-! ## The words of the extraction commands -/

/-- Each of the three opcodes belongs to one command. -/
theorem extractCommand_of_opcode (i : Instr) :
    (i.opcode = 0x40 → i = .lookup) ∧ (i.opcode = 0x41 → ∃ x : Bool × BitVec 16, i = .rdbyte x.1 x.2) ∧
      (i.opcode = 0x42 → ∃ pos, i = .extract pos) := by
  cases i <;> simp [Instr.opcode]

theorem lookup_decodesExactly : DecodesExactly 0x40 (fun w i => w = 0x40000000 ∧ i = .lookup) :=
  decodesExactly_single rfl rfl rfl fun i => (extractCommand_of_opcode i).1

theorem rdbyte_decodesExactly : DecodesExactly 0x41 (fun w i => ∃ (b : Bool) (pos : BitVec 16),
    w = makeWord 0x41 (if b then 1 else 0) pos ∧ i = .rdbyte b pos) :=
  decodesExactly_family (fun x : Bool × BitVec 16 => .rdbyte x.1 x.2) (fun _ => rfl) (fun _ => rfl)
    (fun i => (extractCommand_of_opcode i).2.1) fun _ _ =>
      ⟨fun ⟨b, pos, h⟩ => ⟨(b, pos), h⟩, fun ⟨x, h⟩ => ⟨x.1, x.2, h⟩⟩

theorem extract_decodesExactly :
    DecodesExactly 0x42 (fun w i => ∃ pos : BitVec 16, w = makeWord 0x42 0 pos ∧ i = .extract pos) :=
  decodesExactly_family .extract (fun _ => rfl) (fun _ => rfl) (fun i => (extractCommand_of_opcode i).2.2)
    fun _ _ => Iff.rfl

end Sys2Proof

namespace Sys2Proof.Machine

/-! ## What the commands answer -/

section ExtractAnswers

variable {s t : State} (hc : LegalConfig s.cfg)
include hc

theorem exec_lookup_none (h : s.lookup = some (t, none)) : exec .lookup s = .next (t.reply .fail 0) := by
  simp only [exec, execLookup, h]
  exact commit_some ((configLegal_iff _).2 hc)

theorem exec_lookup_some {p : Nat} (h : s.lookup = some (t, some p)) :
    exec .lookup s = .next (t.reply .ok (zext (BitVec.ofNat 16 p))) := by
  simp only [exec, execLookup, h]
  exact commit_some ((configLegal_iff _).2 hc)

theorem exec_rdbyte_fail {pos : BitVec 16} {b : Bool} (h : readByte s (positionOf pos) b = some none) :
    exec (.rdbyte b pos) s = .next (s.reply .fail 0) := by
  simp only [exec, execRdbyte, h]
  exact commit_some ((configLegal_iff _).2 hc)

theorem exec_rdbyte_ok {pos : BitVec 16} {b bit : Bool} {byte : Byte}
    (h : readByte s (positionOf pos) b = some (some (byte, bit))) :
    exec (.rdbyte b pos) s =
      .next (s.reply .ok (readByteData byte bit (positionOf pos + 8 * s.cfg.spb))) := by
  simp only [exec, execRdbyte, h]
  exact commit_some ((configLegal_iff _).2 hc)

theorem exec_extract_fail {pos : BitVec 16} (h : s.extract (positionOf pos) = some none) :
    exec (.extract pos) s = .next (s.reply .fail 0) := by
  simp only [exec, execExtract, h]
  exact commit_some ((configLegal_iff _).2 hc)

theorem exec_extract_ok {pos : BitVec 16} {bit : Bool} (h : s.extract (positionOf pos) = some (some (t, bit))) :
    exec (.extract pos) s = .next (t.reply .ok (extractData bit (positionOf pos + 96 * s.cfg.spb))) := by
  simp only [exec, execExtract, h]
  exact commit_some ((configLegal_iff _).2 hc)

end ExtractAnswers

/-! ## The flag scan (spec/44_extract.md R181) -/

theorem firstFlag_eq_some_iff {s : State} {lim p : Nat} : firstFlag s lim = some p ↔
    s.ms ≤ p ∧ p < lim ∧ s.flg[p]? = some true ∧ ∀ q, s.ms ≤ q → q < p → s.flg[q]? ≠ some true := by
  refine ⟨firstFlag_some, fun ⟨hms, hlim, hflag, hleast⟩ => ?_⟩
  cases hfound : firstFlag s lim with
  | none => exact absurd hflag (firstFlag_none hfound p hms hlim)
  | some q =>
    obtain ⟨hms', -, hflag', hleast'⟩ := firstFlag_some hfound
    have hpq : ¬ p < q := fun hlt => hleast' p hms hlt hflag
    have hqp : ¬ q < p := fun hlt => hleast q hms' hlt hflag'
    rw [Nat.le_antisymm (Nat.not_lt.1 hpq) (Nat.not_lt.1 hqp)]

theorem firstFlag_eq_none_iff {s : State} {lim : Nat} : firstFlag s lim = none ↔
    ∀ q, s.ms ≤ q → q < lim → s.flg[q]? ≠ some true := by
  refine ⟨firstFlag_none, fun h => Option.eq_none_iff_forall_ne_some.2 fun p hp => ?_⟩
  obtain ⟨hms, hlim, hflag, -⟩ := firstFlag_some hp
  exact h p hms hlim hflag

/-! ## The two sync bytes (spec/44_extract.md R181) -/

/-- The sixteen line bits from `p` on, read with 1 before the first, are 0, 1, 0, 1, .... -/
def ReadsSync (s : State) (p : Nat) : Prop := ∀ n, n < 16 → lineBit s p true n = decide (n % 2 = 1)

/-- The byte 0x55 in stream order. -/
theorem eq_0x55_iff {b : Byte} : b = 0x55 ↔ ∀ n, n < 8 → b.getLsbD (7 - n) = decide (n % 2 = 1) := by
  constructor
  · rintro rfl
    decide
  · intro h
    have hbits : ∀ i, i < 8 → (0x55 : Byte).getLsbD (7 - i) = decide (i % 2 = 1) := by decide
    apply BitVec.eq_of_getLsbD_eq
    intro i hi
    have hrev : 7 - (7 - i) = i := by omega
    have hbit := (h (7 - i) (by omega)).trans (hbits (7 - i) (by omega)).symm
    rwa [hrev] at hbit

/-- Eight bits read into an empty byte, in stream order: the first bit read is the most significant one. -/
theorem readBits_streamBits {s : State} (hw : Memory.wf s) {start : Nat} (bit : Bool)
    (h : start + 7 * s.cfg.spb < s.cfg.len) :
    ∃ r, readBits s 8 start bit 0 = some (r, lineBit s start bit 7) ∧
      ∀ n, n < 8 → r.getLsbD (7 - n) = lineBit s start bit n := by
  obtain ⟨r, hr, hbits⟩ := readBits_spec hw (bit := bit) (byte := 0) h
  refine ⟨r, hr, fun n hn => ?_⟩
  rw [hbits _ (by omega), if_pos (by omega), Nat.sub_sub_self (by omega)]

theorem readByte_streamBits {s : State} (hw : Memory.wf s) {start : Nat} (bit : Bool)
    (h : start + 7 * s.cfg.spb < s.cfg.len) :
    ∃ r, readByte s start bit = some (some (r, lineBit s start bit 7)) ∧
      ∀ n, n < 8 → r.getLsbD (7 - n) = lineBit s start bit n := by
  obtain ⟨r, hr, hbits⟩ := readBits_streamBits hw bit h
  have hfits : ¬ s.cfg.len - 1 < start + 7 * s.cfg.spb := by omega
  exact ⟨r, by rw [readByte, if_neg hfits, hr, Option.map_some], hbits⟩

/-- Inside the window the two-byte check compares the sixteen line bits: the second byte goes on where the first ends. -/
theorem syncBytesAt_spec {s : State} (hw : Memory.wf s) {p : Nat} (h : p + 15 * s.cfg.spb < s.cfg.len) :
    ∃ b, syncBytesAt s p = some b ∧ (b = true ↔ ReadsSync s p) := by
  obtain ⟨r₁, hr₁, hbits₁⟩ := readByte_streamBits hw (start := p) true (by omega)
  obtain ⟨r₂, hr₂, hbits₂⟩ := readByte_streamBits hw (start := p + 8 * s.cfg.spb) (lineBit s p true 7) (by omega)
  refine ⟨r₁ == 0x55 && r₂ == 0x55, by simp only [syncBytesAt, hr₁, hr₂], ?_⟩
  have hsecond : ∀ n, n < 8 → r₂.getLsbD (7 - n) = lineBit s p true (8 + n) := fun n hn =>
    (hbits₂ n hn).trans (lineBit_add s p true 7 n)
  have hparity : ∀ n, decide ((8 + n) % 2 = 1) = decide (n % 2 = 1) := fun n => decide_eq_decide.2 (by omega)
  rw [Bool.and_eq_true, beq_iff_eq, beq_iff_eq, eq_0x55_iff, eq_0x55_iff]
  constructor
  · rintro ⟨hfirst', hsecond'⟩ n hn
    rcases Nat.lt_or_ge n 8 with hlt | hge
    · rw [← hbits₁ n hlt, hfirst' n hlt]
    · obtain ⟨m, rfl⟩ := Nat.exists_eq_add_of_le hge
      rw [← hsecond m (by omega), hsecond' m (by omega), hparity]
  · intro hsync
    refine ⟨fun n hn => ?_, fun n hn => ?_⟩
    · rw [hbits₁ n hn, hsync n (by omega)]
    · rw [hsecond n hn, hsync _ (by omega), hparity]

/-- A sync word in the samples toggles the running bit at each of the sixteen bit instants. -/
theorem SyncAt.readsSync {s : State} {p : Nat} (h : SyncAt s p) : ReadsSync s p := by
  have htoggles : ∀ n, n < 16 → toggles s (p + n * s.cfg.spb) = true := by
    intro n hn
    obtain ⟨v, hv, hout, -⟩ := h n hn
    rw [toggles_eq hv, outOfBand_iff]
    exact hout
  intro n hn
  induction n with
  | zero =>
    have hfirst := htoggles 0 hn
    rw [Nat.zero_mul, Nat.add_zero] at hfirst
    rw [lineBit, hfirst]
    rfl
  | succ n ih =>
    rw [lineBit, ih (by omega), htoggles (n + 1) hn, Bool.xor_true, ← decide_not, decide_eq_decide]
    omega

/-! ## LOOKUP (spec/44_extract.md R181, R182 b) -/

section Lookup

variable {s : State} (hs : Inv s)
include hs

theorem exec_lookup_of_no_flag (h : ∀ q, s.ms ≤ q → q < s.cfg.len - 15 * s.cfg.spb → s.flg[q]? ≠ some true) :
    exec .lookup s = .next ((s.setMs (s.cfg.len - 15 * s.cfg.spb)).reply .fail 0) := by
  have hnone := firstFlag_eq_none_iff.2 h
  exact exec_lookup_none hs.config (by simp only [State.lookup, hnone])

variable {p : Nat} (hp : firstFlag s (s.cfg.len - 15 * s.cfg.spb) = some p)
include hp

theorem syncBytesAt_firstFlag : ∃ b, syncBytesAt s p = some b ∧ (b = true ↔ ReadsSync s p) := by
  obtain ⟨-, hlim, -, -⟩ := firstFlag_some hp
  exact syncBytesAt_spec hs.window (by omega)

/-- The position is less than L, so no bit of it is lost in the response. -/
theorem zext_firstFlag : zext (BitVec.ofNat 16 p) = BitVec.ofNat 64 p := by
  obtain ⟨-, hlim, -, -⟩ := firstFlag_some hp
  have hlen := hs.config.len_le
  apply BitVec.eq_of_toNat_eq
  rw [zext, BitVec.toNat_setWidth, BitVec.toNat_ofNat, BitVec.toNat_ofNat, Nat.mod_eq_of_lt (a := p) (by omega)]

theorem exec_lookup_of_sync (hsync : ReadsSync s p) :
    exec .lookup s = .next ((s.setMs p).reply .ok (BitVec.ofNat 64 p)) := by
  obtain ⟨b, hb, hiff⟩ := syncBytesAt_firstFlag hs hp
  obtain rfl := hiff.2 hsync
  rw [← zext_firstFlag hs hp]
  exact exec_lookup_some hs.config (by simp only [State.lookup, hp, hb])

theorem exec_lookup_of_not_sync (hsync : ¬ ReadsSync s p) :
    exec .lookup s = .next ((s.setMs (p + s.cfg.spb)).reply .fail 0) := by
  obtain ⟨b, hb, hiff⟩ := syncBytesAt_firstFlag hs hp
  obtain rfl := Bool.eq_false_iff.2 (hsync ∘ hiff.1)
  exact exec_lookup_none hs.config (by simp only [State.lookup, hp, hb])

end Lookup

/-- Settles O37: the scan finds the least flag (`firstFlag_eq_some_iff`), and the two bytes there are the sixteen line bits
(`syncBytesAt_spec`). -/
theorem lookupScansTheFlags : Obligations.LookupScansTheFlags := by
  refine ⟨lookup_decodesExactly, fun s hs => ⟨exec_lookup_of_no_flag hs, fun p hms hlim hflag hleast => ?_⟩⟩
  have hp := firstFlag_eq_some_iff.2 ⟨hms, hlim, hflag, hleast⟩
  exact ⟨exec_lookup_of_sync hs hp, exec_lookup_of_not_sync hs hp⟩

/-- Settles O38: a sound flag marks a sync word, which reads as the two sync bytes (`SyncAt.readsSync`). -/
theorem lookupConfirmsSoundFlags : Obligations.LookupConfirmsSoundFlags := by
  intro s p hs hsound hms hlim hflag hleast
  have hsync : SyncAt s p := hsound p hms (by omega) hflag
  exact exec_lookup_of_sync hs (firstFlag_eq_some_iff.2 ⟨hms, hlim, hflag, hleast⟩) hsync.readsSync

/-! ## The layout of a reader's response (spec/30_encoding.md R91) -/

theorem boolData_getLsbD (b : Bool) (i : Nat) : (boolData b).getLsbD i = (decide (i = 0) && b) := by
  cases b <;> simp [boolData, zext, BitVec.getLsbD_one]

/-- Below bit 16 there is the running bit, at bit 8, alone. -/
theorem extractData_getLsbD (bit : Bool) (next : Nat) {i : Nat} (h : i < 16) :
    (extractData bit next).getLsbD i = (decide (i = 8) && bit) := by
  have hpos : (!decide (i < 8) && decide (i - 8 = 0)) = decide (i = 8) := by
    rw [Bool.eq_iff_iff]
    simp only [Bool.and_eq_true, Bool.not_eq_true', decide_eq_false_iff_not, decide_eq_true_eq]
    omega
  simp only [extractData, BitVec.getLsbD_or, BitVec.getLsbD_shiftLeft, boolData_getLsbD]
  simp [h, ← hpos, show i < 64 by omega, Bool.and_assoc]

/-- The next position of at most 24 bits stands from bit 16 on. -/
theorem extractData_high (bit : Bool) {next : Nat} (h : next < 2 ^ 24) :
    (extractData bit next).toNat / 2 ^ 16 = next := by
  have hbit : (boolData bit).toNat < 2 := by cases bit <;> decide
  have hnext : (zext (BitVec.ofNat 24 next)).toNat = next := by
    rw [zext, BitVec.toNat_setWidth_of_le (by decide), BitVec.toNat_ofNat, Nat.mod_eq_of_lt h]
  have hlow : (boolData bit).toNat * 2 ^ 8 % 2 ^ 64 / 2 ^ 16 = 0 := by omega
  have hhigh : next * 2 ^ 16 % 2 ^ 64 / 2 ^ 16 = next := by
    rw [Nat.mod_eq_of_lt (by omega), Nat.mul_div_cancel _ (by decide)]
  simp only [extractData, BitVec.toNat_or, BitVec.toNat_shiftLeft, Nat.shiftLeft_eq, Nat.or_div_two_pow, hnext, hlow,
    hhigh, Nat.zero_or]

theorem readByteData_eq (byte : Byte) (bit : Bool) (next : Nat) :
    readByteData byte bit next = zext byte ||| extractData bit next := BitVec.or_assoc _ _ _

/-- Below bit 16 there are the byte, in bits 7..0, and the running bit, at bit 8. -/
theorem readByteData_getLsbD (byte : Byte) (bit : Bool) (next : Nat) {i : Nat} (h : i < 16) :
    (readByteData byte bit next).getLsbD i = (byte.getLsbD i || (decide (i = 8) && bit)) := by
  have hzext : (zext byte).getLsbD i = byte.getLsbD i := by
    rw [zext, BitVec.getLsbD_setWidth, decide_eq_true (show i < 64 by omega), Bool.true_and]
  rw [readByteData_eq, BitVec.getLsbD_or, extractData_getLsbD bit next h, hzext]

theorem readByteData_high (byte : Byte) (bit : Bool) {next : Nat} (h : next < 2 ^ 24) :
    (readByteData byte bit next).toNat / 2 ^ 16 = next := by
  have hbyte : (zext byte).toNat / 2 ^ 16 = 0 := by
    rw [zext, BitVec.toNat_setWidth]; omega
  rw [readByteData_eq, BitVec.toNat_or, Nat.or_div_two_pow, hbyte, extractData_high bit h, Nat.zero_or]

/-! ## RDBYTE (spec/44_extract.md R183) -/

/-- The position after a read of at most 96 bits from a 16-bit position fits in 24 bits. -/
theorem nextPosition_lt {s : State} (hc : LegalConfig s.cfg) (pos : BitVec 16) {bits : Nat} (h : bits ≤ 96) :
    positionOf pos + bits * s.cfg.spb < 2 ^ 24 := by
  have hspb := Nat.mul_le_mul h hc.spb_u8
  have hpos := pos.isLt
  rw [positionOf]
  omega

/-- Settles O39: the reader's bits are the line bits (`readByte_streamBits`), and the response keeps them apart. -/
theorem rdbyteReadsEightLineBits : Obligations.RdbyteReadsEightLineBits := by
  refine ⟨rdbyte_decodesExactly, fun s b pos hs =>
    ⟨fun hbeyond => exec_rdbyte_fail hs.config (readByte_fail hbeyond), fun hfits => ?_⟩⟩
  have hlen := hs.config.len_ge
  obtain ⟨byte, hread, hbits⟩ := readByte_streamBits hs.window (start := positionOf pos) b
    (show pos.toNat + 7 * s.cfg.spb < s.cfg.len by omega)
  refine ⟨_, exec_rdbyte_ok hs.config hread, fun n hn => ?_, ?_, fun n h9 hn => ?_,
    readByteData_high _ _ (nextPosition_lt hs.config pos (by decide))⟩
  · have hne : 7 - n ≠ 8 := by omega
    rw [readByteData_getLsbD _ _ _ (by omega), hbits n hn, decide_eq_false hne, Bool.false_and, Bool.or_false]
    rfl
  · rw [readByteData_getLsbD _ _ _ (by decide), BitVec.getLsbD_of_ge _ _ (by decide)]
    rfl
  · have hne : n ≠ 8 := by omega
    rw [readByteData_getLsbD _ _ _ hn, BitVec.getLsbD_of_ge _ _ (by omega), decide_eq_false hne]
    rfl

/-! ## EXTRACT (spec/44_extract.md R185) -/

/-- The chain of byte reads at a list of distinct indices: the j-th byte read holds the line bits 8j .. 8j + 7, at the j-th
index, and the other bytes stay. -/
theorem readFrame_spec {s : State} (hw : Memory.wf s) (i : Fin 12) (is : List (Fin 12)) (hnodup : (i :: is).Nodup)
    {start : Nat} (bit : Bool) (f : Frame) (h : start + (8 * is.length + 7) * s.cfg.spb < s.cfg.len) :
    ∃ g, readFrame s (i :: is) start bit f = some (g, lineBit s start bit (8 * is.length + 7)) ∧
      (∀ j k, (i :: is)[j]? = some k → ∀ n, n < 8 → g[k].getLsbD (7 - n) = lineBit s start bit (8 * j + n)) ∧
      ∀ k : Fin 12, k ∉ i :: is → g[k] = f[k] := by
  induction is generalizing i start bit f with
  | nil =>
    obtain ⟨byte, hread, hbits⟩ := readBits_streamBits hw bit (by simpa using h)
    refine ⟨f.set i byte, by simp only [readFrame, hread]; rfl, fun j k hk n hn => ?_, fun k hk => ?_⟩
    · obtain ⟨rfl, rfl⟩ : j = 0 ∧ i = k := by simpa [List.getElem?_singleton] using hk
      simpa using hbits n hn
    · have hne : i ≠ k := by simpa [eq_comm] using hk
      exact Vector.getElem_set_ne _ _ (by simpa [Fin.ext_iff] using hne)
  | cons i' is ih =>
    obtain ⟨hi, hnodup'⟩ := List.nodup_cons.1 hnodup
    have hlen : (8 * (is.length + 1) + 7) * s.cfg.spb = 8 * s.cfg.spb + (8 * is.length + 7) * s.cfg.spb := by ring
    rw [List.length_cons, hlen] at h
    obtain ⟨byte, hread, hbits⟩ := readBits_streamBits hw (start := start) bit (by omega)
    obtain ⟨g, hg, hgbits, hgkeep⟩ := ih i' hnodup' (lineBit s start bit 7) (f.set i byte)
      (start := start + 8 * s.cfg.spb) (by omega)
    have hnext : ∀ n, lineBit s (start + 8 * s.cfg.spb) (lineBit s start bit 7) n = lineBit s start bit (8 + n) :=
      lineBit_add s start bit 7
    refine ⟨g, ?_, fun j k hk n hn => ?_, fun k hk => ?_⟩
    · have hbit : 8 + (8 * is.length + 7) = 8 * (is.length + 1) + 7 := by omega
      rw [readFrame]
      simp only [hread, hg, hnext, hbit, List.length_cons]
    · cases j with
      | zero =>
        obtain rfl : i = k := Option.some.inj hk
        have hbyte : g[i] = byte := (hgkeep i hi).trans (Vector.getElem_set_self _)
        simpa [hbyte] using hbits n hn
      | succ j =>
        have hbit : 8 + (8 * j + n) = 8 * (j + 1) + n := by omega
        rw [hgbits j k hk n hn, hnext, hbit]
    · have hne : i ≠ k := fun heq => hk (heq ▸ List.mem_cons_self)
      have hrest : k ∉ i' :: is := fun hmem => hk (List.mem_cons_of_mem _ hmem)
      exact (hgkeep k hrest).trans (Vector.getElem_set_ne _ _ (by simpa [Fin.ext_iff] using hne))

/-- The frame EXTRACT writes: its frame bits are the 96 line bits. -/
theorem extract_streamBits {s : State} (hs : Inv s) {start : Nat} (h : start + 95 * s.cfg.spb ≤ s.cfg.len - 1) :
    ∃ f, s.extract start = some (some (s.setFr f, lineBit s start true 95)) ∧
      ∀ n, n < 96 → frameBit f n = lineBit s start true n := by
  have hlen := hs.config.len_ge
  have hspec := readFrame_spec hs.window 0 (List.finRange 12).tail (by decide) (start := start) true s.fr
  rw [show (0 : Fin 12) :: (List.finRange 12).tail = List.finRange 12 from rfl,
    show 8 * (List.finRange 12).tail.length + 7 = 95 from rfl] at hspec
  obtain ⟨f, hread, hbits, -⟩ := hspec (by omega)
  have hfits : ¬ s.cfg.len - 1 < start + 95 * s.cfg.spb := by omega
  refine ⟨f, by rw [State.extract, if_neg hfits, hread, Option.map_some], fun n hn => ?_⟩
  have hk : n / 8 < 12 := by omega
  have hbit := hbits (n / 8) ⟨n / 8, hk⟩ (by simp [hk]) (n % 8) (Nat.mod_lt _ (by decide))
  rw [Nat.div_add_mod] at hbit
  exact (frameBit_eq f hn).trans hbit

/-- Settles O40: the frame written is the 96 line bits (`extract_streamBits`), and the response carries the last of them. -/
theorem extractReadsTheFrameBits : Obligations.ExtractReadsTheFrameBits := by
  refine ⟨extract_decodesExactly, fun s pos hs =>
    ⟨fun hbeyond => exec_extract_fail hs.config (extract_fail hbeyond), fun hfits => ?_⟩⟩
  obtain ⟨f, hextract, hbits⟩ := extract_streamBits hs hfits
  refine ⟨f, _, exec_extract_ok hs.config hextract, hbits, ?_, fun n hn hne => ?_,
    extractData_high _ (nextPosition_lt hs.config pos (by decide))⟩
  · exact (extractData_getLsbD _ _ (by decide)).trans (Bool.true_and _)
  · rw [extractData_getLsbD _ _ hn, decide_eq_false hne, Bool.false_and]

end Sys2Proof.Machine

/-! The statements of spec/45_frame_fec.md. The words of the eight commands and what each answers; then the packing, which is
said once, bit by bit, for UNPACK, and carried over to REPACK by the round trip; then the CRC repair, the descrambler, the
numbers in the message fields, and the clean frame end to end. -/

namespace Sys2Proof

open Sys2Proof.Machine

/-! ## The words of the frame commands -/

/-- The frame commands without operands (format N). -/
def plainFrameCommands : List Instr := [.validate, .unpack, .repack, .crcfix, .descr, .fields]

theorem eq_of_opcode_eq_plainFrameCommand {i j : Instr} (hj : j ∈ plainFrameCommands) (h : i.opcode = j.opcode) :
    i = j := by
  simp only [plainFrameCommands, List.mem_cons, List.not_mem_nil, or_false] at hj
  rcases hj with rfl | rfl | rfl | rfl | rfl | rfl
  all_goals cases i <;> simp [Instr.opcode] at h ⊢

theorem plainFrameCommand_decodesExactly {i₀ : Instr} {op : BitVec 8} {w₀ : Word} (hmem : i₀ ∈ plainFrameCommands)
    (hop : i₀.opcode = op) (hwf : i₀.wellFormed = true) (hword : encode i₀ = w₀) :
    DecodesExactly op (fun w i => w = w₀ ∧ i = i₀) :=
  decodesExactly_single hop hwf hword fun _ h => eq_of_opcode_eq_plainFrameCommand hmem (h.trans hop.symm)

/-- The words of an opcode whose commands are those of one family, of which only some are well formed. -/
theorem decodesExactly_family_wellFormed {α : Type} {op : BitVec 8} {listed : Word → Instr → Prop} (command : α → Instr)
    (hop : ∀ x, (command x).opcode = op) (honly : ∀ i : Instr, i.opcode = op → ∃ x, i = command x)
    (hlisted : ∀ w i, listed w i ↔ ∃ x, (command x).wellFormed = true ∧ w = encode (command x) ∧ i = command x) :
    DecodesExactly op listed := by
  refine decodesExactly_of_words fun w i => (hlisted w i).trans ⟨?_, ?_⟩
  · rintro ⟨x, hwf, rfl, rfl⟩
    exact ⟨hop x, hwf, rfl⟩
  · rintro ⟨hi, hwf, hw⟩
    obtain ⟨x, rfl⟩ := honly i hi
    exact ⟨x, hwf, hw.symm, rfl⟩

/-- Each of the two opcodes belongs to one command. -/
theorem frameByteCommand_of_opcode (i : Instr) :
    (i.opcode = 0x56 → ∃ x : BitVec 4 × Byte, i = .wrfr x.1 x.2) ∧ (i.opcode = 0x57 → ∃ j, i = .rdfr j) := by
  cases i <;> simp [Instr.opcode]

theorem wrfr_wellFormed_iff {j : BitVec 4} {imm : Byte} : (Instr.wrfr j imm).wellFormed = true ↔ j.toNat < 12 :=
  decide_eq_true_iff.trans Nat.lt_succ_iff.symm

theorem rdfr_wellFormed_iff {j : BitVec 4} : (Instr.rdfr j).wellFormed = true ↔ j.toNat < 12 :=
  decide_eq_true_iff.trans Nat.lt_succ_iff.symm

theorem wrfr_decodesExactly : DecodesExactly 0x56 (fun w i => ∃ (j : BitVec 4) (imm : Byte),
    j.toNat < 12 ∧ w = makeWord 0x56 (j.setWidth 8) (imm.setWidth 16) ∧ i = .wrfr j imm) :=
  decodesExactly_family_wellFormed (fun x : BitVec 4 × Byte => .wrfr x.1 x.2) (fun _ => rfl)
    (fun i => (frameByteCommand_of_opcode i).1) fun _ _ =>
      ⟨fun ⟨j, imm, hj, h⟩ => ⟨(j, imm), wrfr_wellFormed_iff.2 hj, h⟩,
        fun ⟨x, hwf, h⟩ => ⟨x.1, x.2, wrfr_wellFormed_iff.1 hwf, h⟩⟩

theorem rdfr_decodesExactly : DecodesExactly 0x57 (fun w i =>
    ∃ j : BitVec 4, j.toNat < 12 ∧ w = makeWord 0x57 (j.setWidth 8) 0 ∧ i = .rdfr j) :=
  decodesExactly_family_wellFormed .rdfr (fun _ => rfl) (fun i => (frameByteCommand_of_opcode i).2)
    fun _ _ => exists_congr fun _ => and_congr rdfr_wellFormed_iff.symm Iff.rfl

end Sys2Proof

namespace Sys2Proof.Machine

/-! ## What the commands answer -/

section FrameAnswers

variable {s t : State} (hc : LegalConfig s.cfg)
include hc

theorem exec_validate_ok (h : StaticFields s.fr) : exec .validate s = .next (s.reply .ok 0) := by
  simp only [exec, execValidate, if_pos ((staticFieldsOk_iff _).2 h)]
  exact commit_some ((configLegal_iff _).2 hc)

theorem exec_validate_fail (h : ¬ StaticFields s.fr) : exec .validate s = .next (s.reply .fail 0) := by
  simp only [exec, execValidate, if_neg (mt (staticFieldsOk_iff _).1 h)]
  exact commit_some ((configLegal_iff _).2 hc)

theorem exec_unpack : exec .unpack s = .next (s.unpack.reply .ok 0) :=
  commit_some ((configLegal_iff _).2 hc)

theorem exec_repack : exec .repack s = .next (s.repack.reply .ok 0) :=
  commit_some ((configLegal_iff _).2 hc)

theorem exec_crcfix_ok {flipped : Bool} (h : s.crcfix = (t, some flipped)) :
    exec .crcfix s = .next (t.reply .ok (boolData flipped)) := by
  simp only [exec, execCrcfix, h]
  exact commit_some ((configLegal_iff _).2 hc)

theorem exec_crcfix_fail (h : s.crcfix = (t, none)) : exec .crcfix s = .next (t.reply .fail 0) := by
  simp only [exec, execCrcfix, h]
  exact commit_some ((configLegal_iff _).2 hc)

theorem exec_descr : exec .descr s = .next (s.descr.reply .ok 0) :=
  commit_some ((configLegal_iff _).2 hc)

theorem exec_fields : exec .fields s = .next (s.reply .ok (fieldsWord s.fr)) :=
  commit_some ((configLegal_iff _).2 hc)

theorem exec_wrfr {i : BitVec 4} (hi : i.toNat < 12) (imm : Byte) :
    exec (.wrfr i imm) s = .next ((s.setFr (s.fr.set i.toNat imm)).reply .ok 0) := by
  simp only [exec, execWrfr, indexOf?_some hi]
  exact commit_some ((configLegal_iff _).2 hc)

theorem exec_rdfr {i : BitVec 4} (hi : i.toNat < 12) :
    exec (.rdfr i) s = .next (s.reply .ok (zext s.fr[i.toNat])) := by
  simp only [exec, execRdfr, indexOf?_some hi]
  exact commit_some ((configLegal_iff _).2 hc)

theorem exec_wrfr_illegal {i : BitVec 4} (hi : 11 < i.toNat) (imm : Byte) :
    exec (.wrfr i imm) s = .next s.illegal := by
  simp only [exec, execWrfr, indexOf?_none hi]
  exact commit_some ((configLegal_iff _).2 hc)

theorem exec_rdfr_illegal {i : BitVec 4} (hi : 11 < i.toNat) : exec (.rdfr i) s = .next s.illegal := by
  simp only [exec, execRdfr, indexOf?_none hi]
  exact commit_some ((configLegal_iff _).2 hc)

end FrameAnswers

/-- Settles O41: the machine's check is the statement's (`staticFieldsOk_iff`). -/
theorem validateChecksTheStaticFields : Obligations.ValidateChecksTheStaticFields :=
  ⟨plainFrameCommand_decodesExactly (by decide) rfl rfl rfl,
    fun _ hc => ⟨exec_validate_ok hc, exec_validate_fail hc⟩⟩

/-- Settles O49: an index below 12 is a byte's, the others are refused. -/
theorem frameByteAccessReadsAndWrites : Obligations.FrameByteAccessReadsAndWrites :=
  ⟨wrfr_decodesExactly, rdfr_decodesExactly, fun _ _ imm hc =>
    ⟨fun hi => ⟨exec_wrfr hc hi imm, exec_rdfr hc hi⟩,
      fun hi => ⟨exec_wrfr_illegal hc hi imm, exec_rdfr_illegal hc hi⟩⟩⟩

/-! ## The frame as 96 bits -/

theorem frameBit_byte (f : Frame) {k i : Nat} (hk : k < 12) (hi : i < 8) :
    frameBit f (8 * k + i) = f[k].getLsbD (7 - i) := by
  have hdiv : (8 * k + i) / 8 = k := by omega
  have hmod : (8 * k + i) % 8 = i := by omega
  rw [frameBit_eq f (by omega)]
  simp only [hdiv, hmod]

theorem frame_ext {f g : Frame} (h : ∀ n, n < 96 → frameBit f n = frameBit g n) : f = g :=
  Vector.ext fun _ hk => frameByte_eq hk fun m hm _ => h m hm

/-! ## UNPACK (spec/45_frame_fec.md R203) -/

/-- Every frame bit belongs to a data symbol, to a parity symbol or to neither. -/
theorem frameBit_place {n : Nat} (hn : n < 96) :
    (∃ k b, k < 9 ∧ b < 4 ∧ n = 27 + 4 * k + b) ∨ (∃ i b, i < 6 ∧ b < 4 ∧ n = 64 + 4 * i + b) ∨
      (n < 27 ∨ n = 63 ∨ 88 ≤ n) := by
  obtain h | h | h : (27 ≤ n ∧ n < 63) ∨ (64 ≤ n ∧ n < 88) ∨ (n < 27 ∨ n = 63 ∨ 88 ≤ n) := by omega
  · exact .inl ⟨(n - 27) / 4, (n - 27) % 4, by omega, by omega, by omega⟩
  · exact .inr (.inl ⟨(n - 64) / 4, (n - 64) % 4, by omega, by omega, by omega⟩)
  · exact .inr (.inr h)

section Unpack

variable (f : Frame)

/-- A data symbol with an even index is the middle nibble of its byte. -/
theorem unpackFrame_even {m : Nat} (hm : m < 5) : (unpackFrame f)[2 * m] = f[3 + m].extractLsb' 1 4 := by
  interval_cases m <;> rfl

/-- A data symbol with an odd index straddles two bytes. -/
theorem unpackFrame_odd {m : Nat} (hm : m < 4) :
    (unpackFrame f)[2 * m + 1] = f[3 + m].extractLsb' 0 1 ++ f[4 + m].extractLsb' 5 3 := by
  interval_cases m <;> rfl

/-- A parity byte holds two symbols, the first in its high nibble. -/
theorem unpackFrame_parity {m : Nat} (hm : m < 3) :
    (unpackFrame f)[9 + 2 * m] = f[8 + m].extractLsb' 4 4 ∧
      (unpackFrame f)[9 + (2 * m + 1)] = f[8 + m].extractLsb' 0 4 := by
  interval_cases m <;> exact ⟨rfl, rfl⟩

theorem nibble_bit (x : Byte) (lo : Nat) {b : Nat} (hb : b < 4) :
    (x.extractLsb' lo 4).getLsbD (3 - b) = x.getLsbD (lo + (3 - b)) := by
  rw [BitVec.getLsbD_extractLsb', decide_eq_true (by omega), Bool.true_and]

theorem straddling_bit_zero (x y : Byte) : (x.extractLsb' 0 1 ++ y.extractLsb' 5 3).getLsbD 3 = x.getLsbD 0 := by
  have hhigh : ¬ 3 < 3 := Nat.lt_irrefl 3
  rw [BitVec.getLsbD_append, if_neg hhigh, BitVec.getLsbD_extractLsb']
  rfl

theorem straddling_bit_succ (x y : Byte) {b : Nat} (hb : b < 3) :
    (x.extractLsb' 0 1 ++ y.extractLsb' 5 3).getLsbD (3 - (b + 1)) = y.getLsbD (7 - b) := by
  have hlow : 3 - (b + 1) < 3 := by omega
  have hpos : 5 + (3 - (b + 1)) = 7 - b := by omega
  rw [BitVec.getLsbD_append, if_pos hlow, BitVec.getLsbD_extractLsb', decide_eq_true hlow, Bool.true_and, hpos]

theorem unpackFrame_data_bit {k b : Nat} (hk : k < 9) (hb : b < 4) :
    (unpackFrame f)[k].getLsbD (3 - b) = frameBit f (27 + 4 * k + b) := by
  obtain ⟨m, rfl | rfl⟩ : ∃ m, k = 2 * m ∨ k = 2 * m + 1 := ⟨k / 2, by omega⟩
  · have hn : 27 + 4 * (2 * m) + b = 8 * (3 + m) + (3 + b) := by omega
    have hpos : 1 + (3 - b) = 7 - (3 + b) := by omega
    rw [unpackFrame_even f (by omega), nibble_bit _ _ hb, hn, frameBit_byte f (by omega) (by omega), hpos]
  · rw [unpackFrame_odd f (by omega)]
    cases b with
    | zero =>
      have hn : 27 + 4 * (2 * m + 1) + 0 = 8 * (3 + m) + 7 := by omega
      rw [hn, frameBit_byte f (by omega) (by omega)]
      exact straddling_bit_zero _ _
    | succ b =>
      have hn : 27 + 4 * (2 * m + 1) + (b + 1) = 8 * (4 + m) + b := by omega
      rw [hn, frameBit_byte f (by omega) (by omega)]
      exact straddling_bit_succ _ _ (by omega)

theorem unpackFrame_parity_bit {i b : Nat} (hi : i < 6) (hb : b < 4) :
    (unpackFrame f)[9 + i].getLsbD (3 - b) = frameBit f (64 + 4 * i + b) := by
  obtain ⟨m, rfl | rfl⟩ : ∃ m, i = 2 * m ∨ i = 2 * m + 1 := ⟨i / 2, by omega⟩
  · have hn : 64 + 4 * (2 * m) + b = 8 * (8 + m) + b := by omega
    have hpos : 4 + (3 - b) = 7 - b := by omega
    rw [(unpackFrame_parity f (by omega)).1, nibble_bit _ _ hb, hn, frameBit_byte f (by omega) (by omega), hpos]
  · have hn : 64 + 4 * (2 * m + 1) + b = 8 * (8 + m) + (4 + b) := by omega
    have hpos : 0 + (3 - b) = 7 - (4 + b) := by omega
    rw [(unpackFrame_parity f (by omega)).2, nibble_bit _ _ hb, hn, frameBit_byte f (by omega) (by omega), hpos]

end Unpack

theorem codeword_getD (cw : Codeword) {k : Nat} (hk : k < 15) : cw.toList.getD k 0 = cw[k] := by
  simp [hk]

/-- Settles O42: each symbol's place in the frame bytes, read as frame bits. -/
theorem unpackReadsTheSymbolBits : Obligations.UnpackReadsTheSymbolBits := by
  refine ⟨plainFrameCommand_decodesExactly (by decide) rfl rfl rfl, fun s hc =>
    ⟨unpackFrame s.fr, exec_unpack hc, fun k b hk hb => ?_, fun i b hi hb => ?_⟩⟩
  · rw [codeword_getD _ (by omega)]
    exact unpackFrame_data_bit s.fr hk hb
  · rw [codeword_getD _ (by omega)]
    exact unpackFrame_parity_bit s.fr hi hb

/-! ## REPACK (spec/45_frame_fec.md R205, R206) -/

/-- A symbol written into the middle of a byte is read back. -/
theorem extractLsb'_middle (x : BitVec 3) (y : Sym) (z : BitVec 1) :
    (x ++ y ++ z : BitVec 8).extractLsb' 1 4 = y := by
  rw [BitVec.extractLsb'_append_eq_of_le (by decide)]
  exact BitVec.extractLsb'_append_eq_right

/-- A symbol written across two bytes is read back. -/
theorem extractLsb'_straddling (x : BitVec 7) (y : Sym) (z : BitVec 4) (w : BitVec 1) :
    (x ++ y.extractLsb' 3 1 : BitVec 8).extractLsb' 0 1 ++ (y.extractLsb' 0 3 ++ z ++ w : BitVec 8).extractLsb' 5 3 =
      y := by
  have hlow : (y.extractLsb' 0 3 ++ z ++ w : BitVec 8).extractLsb' 5 3 = y.extractLsb' 0 3 := by
    rw [BitVec.extractLsb'_append_eq_of_le (by decide)]
    exact BitVec.extractLsb'_append_eq_left
  have hhigh : (x ++ y.extractLsb' 3 1 : BitVec 8).extractLsb' 0 1 = y.extractLsb' 3 1 :=
    BitVec.extractLsb'_append_eq_right
  rw [hlow, hhigh, BitVec.extractLsb'_append_extractLsb'_eq_extractLsb' (by decide)]
  exact BitVec.extractLsb'_eq_self

section Repack

variable (f : Frame) (cw : Codeword)

theorem unpackFrame_repackFrame : unpackFrame (repackFrame f cw) = cw := by
  apply Vector.ext
  intro k hk
  obtain hk9 | hk9 : k < 9 ∨ 9 ≤ k := by omega
  · obtain ⟨m, rfl | rfl⟩ : ∃ m, k = 2 * m ∨ k = 2 * m + 1 := ⟨k / 2, by omega⟩
    · have hm : m < 5 := by omega
      rw [unpackFrame_even _ hm]
      interval_cases m <;> exact extractLsb'_middle _ _ _
    · have hm : m < 4 := by omega
      rw [unpackFrame_odd _ hm]
      interval_cases m <;> exact extractLsb'_straddling _ _ _ _
  · obtain ⟨m, rfl | rfl⟩ : ∃ m, k = 9 + 2 * m ∨ k = 9 + (2 * m + 1) := ⟨(k - 9) / 2, by omega⟩
    · have hm : m < 3 := by omega
      rw [(unpackFrame_parity _ hm).1]
      interval_cases m <;> exact BitVec.extractLsb'_append_eq_left
    · have hm : m < 3 := by omega
      rw [(unpackFrame_parity _ hm).2]
      interval_cases m <;> exact BitVec.extractLsb'_append_eq_right

theorem repackFrame_data_bit {k b : Nat} (hk : k < 9) (hb : b < 4) :
    frameBit (repackFrame f cw) (27 + 4 * k + b) = cw[k].getLsbD (3 - b) := by
  rw [← unpackFrame_data_bit _ hk hb, unpackFrame_repackFrame]

theorem repackFrame_parity_bit {i b : Nat} (hi : i < 6) (hb : b < 4) :
    frameBit (repackFrame f cw) (64 + 4 * i + b) = cw[9 + i].getLsbD (3 - b) := by
  rw [← unpackFrame_parity_bit _ hi hb, unpackFrame_repackFrame]

/-- Bytes 0..2 and 11 stay. -/
theorem repackFrame_getElem_of_outside {k : Nat} (hk : k < 12) (h : k < 3 ∨ k = 11) :
    (repackFrame f cw)[k] = f[k] := by
  obtain h | rfl := h
  · interval_cases k <;> rfl
  · rfl

/-- Byte 3 keeps its top three bits. -/
theorem repackFrame_topThree_bit {i : Nat} (hi : i < 3) :
    (repackFrame f cw)[3].getLsbD (7 - i) = f[3].getLsbD (7 - i) := by
  have hbyte : (repackFrame f cw)[3] = f[3].extractLsb' 5 3 ++ cw[0] ++ cw[1].extractLsb' 3 1 := rfl
  have h1 : ¬ 7 - i < 1 := by omega
  have h4 : ¬ 7 - i - 1 < 4 := by omega
  have h3 : 7 - i - 1 - 4 < 3 := by omega
  have hpos : 5 + (7 - i - 1 - 4) = 7 - i := by omega
  rw [hbyte, BitVec.getLsbD_append, if_neg h1, BitVec.getLsbD_append, if_neg h4, BitVec.getLsbD_extractLsb',
    decide_eq_true h3, Bool.true_and, hpos]

/-- Byte 7 keeps SK1. -/
theorem repackFrame_sk1_bit : (repackFrame f cw)[7].getLsbD 0 = f[7].getLsbD 0 := by
  have hbyte : (repackFrame f cw)[7] = cw[7].extractLsb' 0 3 ++ cw[8] ++ f[7].extractLsb' 0 1 := rfl
  rw [hbyte, BitVec.getLsbD_append, if_pos (by decide), BitVec.getLsbD_extractLsb']
  rfl

theorem repackFrame_kept_bit {n : Nat} (hn : n < 96) (h : n < 27 ∨ n = 63 ∨ 88 ≤ n) :
    frameBit (repackFrame f cw) n = frameBit f n := by
  obtain ⟨k, i, hi, rfl⟩ : ∃ k i, i < 8 ∧ n = 8 * k + i := ⟨n / 8, n % 8, by omega, by omega⟩
  have hk : k < 12 := by omega
  rw [frameBit_byte _ hk hi, frameBit_byte _ hk hi]
  obtain hout | ⟨rfl, hi3⟩ | ⟨rfl, rfl⟩ : (k < 3 ∨ k = 11) ∨ (k = 3 ∧ i < 3) ∨ (k = 7 ∧ i = 7) := by omega
  · rw [repackFrame_getElem_of_outside f cw hk hout]
  · exact repackFrame_topThree_bit f cw hi3
  · exact repackFrame_sk1_bit f cw

theorem repackFrame_unpackFrame : repackFrame f (unpackFrame f) = f := by
  refine frame_ext fun n hn => ?_
  obtain ⟨k, b, hk, hb, rfl⟩ | ⟨i, b, hi, hb, rfl⟩ | hkept := frameBit_place hn
  · rw [repackFrame_data_bit _ _ hk hb, unpackFrame_data_bit f hk hb]
  · rw [repackFrame_parity_bit _ _ hi hb, unpackFrame_parity_bit f hi hb]
  · exact repackFrame_kept_bit f _ hn hkept

end Repack

/-- Settles O43: UNPACK reads the symbols back (`unpackFrame_repackFrame`), so they stand where UNPACK reads them. -/
theorem repackWritesTheSymbolBits : Obligations.RepackWritesTheSymbolBits := by
  refine ⟨plainFrameCommand_decodesExactly (by decide) rfl rfl rfl, fun s hc =>
    ⟨repackFrame s.fr s.cw, exec_repack hc, fun k b hk hb => ?_, fun i b hi hb => ?_,
      fun _ hn h => repackFrame_kept_bit _ _ hn h⟩⟩
  · rw [codeword_getD _ (by omega)]
    exact repackFrame_data_bit _ _ hk hb
  · rw [codeword_getD _ (by omega)]
    exact repackFrame_parity_bit _ _ hi hb

/-- Settles O44: the round trips of `repackFrame` and `unpackFrame`. -/
theorem packingRoundTrips : Obligations.PackingRoundTrips := by
  constructor
  · intro s t u hunpack hrepack
    obtain rfl := commit_some_eq_next hunpack
    obtain rfl := commit_some_eq_next hrepack
    exact repackFrame_unpackFrame s.fr
  · intro s t u hrepack hunpack
    obtain rfl := commit_some_eq_next hrepack
    obtain rfl := commit_some_eq_next hunpack
    exact unpackFrame_repackFrame s.fr s.cw

/-! ## CRCFIX (spec/45_frame_fec.md R207, R208) -/

section Crcfix

variable {s : State} (hc : LegalConfig s.cfg)
include hc

theorem exec_crcfix_pass (h : messageCrc s.fr = s.fr[11]) :
    exec .crcfix s = .next ((s.setCrc (messageCrc s.fr)).reply .ok 0) := by
  have hfix : s.crcfix = (s.setCrc (messageCrc s.fr), some false) := if_pos h
  exact exec_crcfix_ok hc hfix

theorem exec_crcfix_repair (h : messageCrc s.fr ≠ s.fr[11]) (hflip : messageCrc (withSk1Flipped s.fr) = s.fr[11]) :
    exec .crcfix s =
      .next (((s.setCrc (messageCrc (withSk1Flipped s.fr))).setFr (withSk1Flipped s.fr)).reply .ok 1) := by
  have hfix : s.crcfix = ((s.setCrc (messageCrc (withSk1Flipped s.fr))).setFr (withSk1Flipped s.fr), some true) :=
    (if_neg h).trans (if_pos hflip)
  exact exec_crcfix_ok hc hfix

theorem exec_crcfix_neither (h : messageCrc s.fr ≠ s.fr[11]) (hflip : messageCrc (withSk1Flipped s.fr) ≠ s.fr[11]) :
    exec .crcfix s = .next ((s.setCrc (messageCrc (withSk1Flipped s.fr))).reply .fail 0) := by
  have hfix : s.crcfix = (s.setCrc (messageCrc (withSk1Flipped s.fr)), none) := (if_neg h).trans (if_neg hflip)
  exact exec_crcfix_fail hc hfix

end Crcfix

/-- Settles O45: the three outcomes of the two comparisons. -/
theorem crcfixTriesTheSk1Flip : Obligations.CrcfixTriesTheSk1Flip :=
  ⟨plainFrameCommand_decodesExactly (by decide) rfl rfl rfl,
    fun _ hc => ⟨exec_crcfix_pass hc, exec_crcfix_repair hc, exec_crcfix_neither hc⟩⟩

theorem withSk1Flipped_crcByte (f : Frame) : (withSk1Flipped f)[11] = f[11] :=
  Vector.getElem_set_ne _ _ (by decide)

theorem withSk1Flipped_withSk1Flipped (f : Frame) : withSk1Flipped (withSk1Flipped f) = f := by
  have hbyte : (withSk1Flipped f)[7] = f[7] ^^^ 1 := Vector.getElem_set_self _
  rw [withSk1Flipped, hbyte, xor_cancel_right, withSk1Flipped, Vector.set_set, Vector.set_getElem_self]

/-- SK1 is one of the bits the CRC covers. -/
theorem messageCrc_withSk1Flipped_ne (f : Frame) : messageCrc (withSk1Flipped f) ≠ messageCrc f := by
  have hlen : 4 < (messageBytes f).length := Nat.lt_succ_self 4
  have hbyte : f[7] ^^^ 1 ≠ (messageBytes f)[4] := fun h => by
    have hself : (1 : Byte) = f[7] ^^^ f[7] := (xor_cancel_left _ _).symm.trans (congrArg (f[7] ^^^ ·) h)
    rw [BitVec.xor_self] at hself
    exact absurd hself (by decide)
  have hne := crcOf_set_ne hlen hbyte
  rwa [← messageBytes_set f (by decide)] at hne

/-- Settles O46: the received CRC is wrong (`messageCrc_withSk1Flipped_ne`), and the candidate is the frame that was sent. -/
theorem crcfixRestoresAFlippedSk1 : Obligations.CrcfixRestoresAFlippedSk1 := by
  intro s f hc hcrc hfr
  have hbyte : s.fr[11] = f[11] := by rw [hfr, withSk1Flipped_crcByte]
  have hback : withSk1Flipped s.fr = f := by rw [hfr, withSk1Flipped_withSk1Flipped]
  have hwrong : messageCrc s.fr ≠ s.fr[11] := by
    rw [hbyte, ← hcrc, hfr]
    exact messageCrc_withSk1Flipped_ne f
  have hright : messageCrc (withSk1Flipped s.fr) = s.fr[11] := by rw [hback, hbyte, hcrc]
  rw [exec_crcfix_repair hc hwrong hright, hback, hcrc]
  rfl

/-! ## DESCR (spec/45_frame_fec.md R210, R211) -/

theorem descramble_getElem (f : Frame) (j : Fin 12) :
    (descramble f)[j] = f[j] ^^^ [0, 0, 0, 0x0A, 0x47, 0x55, 0x4D, 0x2B, 0, 0, 0, 0].getD j.val (0 : Byte) := by
  fin_cases j <;> simp [descramble, key]

theorem descramble_descramble (f : Frame) : descramble (descramble f) = f := by
  refine Vector.ext fun j hj => ?_
  have hbyte (g : Frame) := descramble_getElem g ⟨j, hj⟩
  simp only [Fin.getElem_fin] at hbyte
  rw [hbyte, hbyte, xor_cancel_right]

/-- Settles O47: byte by byte, and XOR undoes itself. -/
theorem descrXorsTheKey : Obligations.DescrXorsTheKey := by
  refine ⟨plainFrameCommand_decodesExactly (by decide) rfl rfl rfl, fun s hc =>
    ⟨descramble s.fr, exec_descr hc, descramble_getElem s.fr, ?_⟩⟩
  have htwice := exec_descr (s := s.setFr (descramble s.fr)) hc
  rw [State.descr, State.setFr_fr, descramble_descramble] at htwice
  exact htwice

/-! ## The numbers in the message fields (spec/45_frame_fec.md R213, R214) -/

theorem toNat_append_eq_add {m n : Nat} (x : BitVec m) (y : BitVec n) :
    (x ++ y).toNat = x.toNat * 2 ^ n + y.toNat := by
  rw [BitVec.toNat_append, ← Nat.shiftLeft_add_eq_or_of_lt y.isLt, Nat.shiftLeft_eq]

theorem fieldT_toNat (f : Frame) : (fieldT f).toNat = timeValue f := by
  simp only [fieldT, toNat_append_eq_add, BitVec.extractLsb'_toNat, Nat.shiftRight_eq_div_pow, timeValue]
  omega

theorem timeValue_lt (f : Frame) : timeValue f < 2 ^ 30 := fieldT_toNat f ▸ (fieldT f).isLt

theorem fieldTz_toNat (f : Frame) : (fieldTz f).toNat = f[7].toNat / 32 % 4 := by
  rw [fieldTz, BitVec.extractLsb'_toNat, Nat.shiftRight_eq_div_pow]

theorem fieldSk_toNat (f : Frame) : (fieldSk f).toNat = f[7].toNat % 4 := by
  rw [fieldSk, BitVec.extractLsb'_toNat, Nat.shiftRight_zero]

/-- A field put above the bits in use adds its value there. -/
theorem toNat_or_zext_shiftLeft {a : Data} {v k n : Nat} (ha : a.toNat = v) (hv : v < 2 ^ k) (x : BitVec n)
    (hfit : n + k ≤ 64) : (a ||| (zext x <<< k)).toNat = v + x.toNat * 2 ^ k := by
  have hx : (zext x).toNat = x.toNat := BitVec.toNat_setWidth_of_le (by omega)
  have hlt : x.toNat * 2 ^ k < 2 ^ 64 :=
    calc x.toNat * 2 ^ k < 2 ^ n * 2 ^ k := Nat.mul_lt_mul_of_pos_right x.isLt (Nat.two_pow_pos k)
      _ = 2 ^ (n + k) := (Nat.pow_add ..).symm
      _ ≤ 2 ^ 64 := Nat.pow_le_pow_right (by decide) hfit
  rw [BitVec.toNat_or, BitVec.toNat_shiftLeft, ha, hx, Nat.shiftLeft_eq, Nat.mod_eq_of_lt hlt, Nat.or_comm,
    ← Nat.shiftLeft_eq, ← Nat.shiftLeft_add_eq_or_of_lt hv, Nat.shiftLeft_eq, Nat.add_comm]

/-- The fields stand one above the other, each below the next one's place. -/
theorem packFields_toNat (t : BitVec 30) (tz : BitVec 2) (ls lss tzc : Bool) (sk : BitVec 2) :
    (packFields t tz ls lss tzc sk).toNat =
      t.toNat + tz.toNat * 2 ^ 35 + ls.toNat * 2 ^ 37 + lss.toNat * 2 ^ 38 + tzc.toNat * 2 ^ 39 + sk.toNat * 2 ^ 40 := by
  have ht : (zext t).toNat = t.toNat := BitVec.toNat_setWidth_of_le (by decide)
  have htz := toNat_or_zext_shiftLeft (k := 35) ht (by omega) tz (by decide)
  have hls := toNat_or_zext_shiftLeft (k := 37) htz (by omega) (BitVec.ofBool ls) (by decide)
  have hlss := toNat_or_zext_shiftLeft (k := 38) hls (by omega) (BitVec.ofBool lss) (by decide)
  have htzc := toNat_or_zext_shiftLeft (k := 39) hlss (by omega) (BitVec.ofBool tzc) (by decide)
  have hsk := toNat_or_zext_shiftLeft (k := 40) htzc (by omega) sk (by decide)
  simp only [BitVec.toNat_ofBool] at hsk
  exact hsk

theorem fieldsWord_toNat (f : Frame) : (fieldsWord f).toNat = fieldsValue f := by
  simp only [fieldsWord, packFields_toNat, fieldT_toNat, fieldTz_toNat, fieldSk_toNat, fieldLs, fieldLss, fieldTzc,
    BitVec.getLsbD, Nat.toNat_testBit, fieldsValue, Nat.reducePow]

/-- Settles O48: the response is the FIELDS word, whose number is the statement's (`fieldsWord_toNat`). -/
theorem fieldsReturnsTheMessageFields : Obligations.FieldsReturnsTheMessageFields :=
  ⟨plainFrameCommand_decodesExactly (by decide) rfl rfl rfl,
    fun s hc => ⟨fieldsWord s.fr, exec_fields hc, fieldsWord_toNat s.fr⟩⟩

/-! ## The TimeData record (spec/45_frame_fec.md R215 to R217) -/

theorem natData_toNat {n : Nat} (h : n < 2 ^ 64) : (natData n).toNat = n := by
  rw [natData, BitVec.toNat_ofNat, Nat.mod_eq_of_lt h]

theorem offsetHours_eq (tz : BitVec 2) : offsetHours tz = [0, 2, 1, 3].getD tz.toNat 0 := by
  revert tz
  decide

theorem transmitterStateOf_eq (sk : BitVec 2) :
    transmitterStateOf sk =
      [TransmitterState.normal, .maint1Week, .maint1Day, .maintOver1Week].getD sk.toNat .normal := by
  revert sk
  decide

/-- Settles O51: T has 30 bits, so the seconds fit, and the two codes index the statement's lists. -/
theorem timeDataFollowsTheFields : Obligations.TimeDataFollowsTheFields := by
  intro f
  have hT := timeValue_lt f
  refine ⟨?_, ?_, ?_, rfl, rfl, rfl, ?_⟩
  · rw [timeDataOf, fieldT_toNat]
    exact natData_toNat (show 3 * timeValue f < 2 ^ 64 by omega)
  · rw [timeDataOf, fieldT_toNat]
    exact natData_toNat (show 3 * timeValue f + 946684800 < 2 ^ 64 by omega)
  · rw [← fieldTz_toNat]
    exact offsetHours_eq _
  · rw [← fieldSk_toNat]
    exact transmitterStateOf_eq _

/-! ## The clean frame end to end (spec/45_frame_fec.md R220) -/

/-- The frame that the encode direction makes of `f`: parity in bytes 8..10 and the CRC in byte 11. -/
def encodedFrame (o : SymbolOrder) (f : Frame) : Frame :=
  let g := repackFrame f (rsEncode o (unpackFrame f))
  g.set 11 (frameCrc g)

section EncodedFrame

variable (o : SymbolOrder) (f : Frame)

theorem repackFrame_rsEncode_bit {n : Nat} (hn : n < 64) :
    frameBit (repackFrame f (rsEncode o (unpackFrame f))) n = frameBit f n := by
  obtain ⟨k, b, hk, hb, rfl⟩ | ⟨i, b, -, -, rfl⟩ | hkept := frameBit_place (show n < 96 by omega)
  · have hdata : (rsEncode o (unpackFrame f))[k] = (unpackFrame f)[k] :=
      (rsEncode_getElem o (unpackFrame f) ⟨k, by omega⟩).trans (if_pos hk)
    rw [repackFrame_data_bit _ _ hk hb, hdata, unpackFrame_data_bit f hk hb]
  · omega
  · exact repackFrame_kept_bit f _ (by omega) hkept

theorem encodedFrame_getElem_of_lt {k : Nat} (hk : k < 11) :
    (encodedFrame o f)[k] = (repackFrame f (rsEncode o (unpackFrame f)))[k] :=
  Vector.getElem_set_ne (by decide) _ (by omega)

theorem encodedFrame_bit {n : Nat} (hn : n < 64) : frameBit (encodedFrame o f) n = frameBit f n := by
  rw [← repackFrame_rsEncode_bit o f hn, frameBit_eq _ (by omega), frameBit_eq _ (by omega),
    encodedFrame_getElem_of_lt o f (by omega)]

theorem encodedFrame_staticFields (h : StaticFields f) : StaticFields (encodedFrame o f) := by
  have hbyte {k : Nat} (hk : k < 4) : (encodedFrame o f)[k] = f[k] :=
    frameByte_eq (by omega) fun m _ hm => encodedFrame_bit o f (by omega)
  obtain ⟨h0, h1, h2, h3⟩ := h
  exact ⟨(hbyte (by decide)).trans h0, (hbyte (by decide)).trans h1, (hbyte (by decide)).trans h2,
    (hbyte (k := 3) (by decide)).symm ▸ h3⟩

/-- The CRC byte is no part of a symbol. -/
theorem unpackFrame_set_crcByte (g : Frame) (c : Byte) : unpackFrame (g.set 11 c) = unpackFrame g := by
  simp [unpackFrame]

theorem unpackFrame_encodedFrame : unpackFrame (encodedFrame o f) = rsEncode o (unpackFrame f) := by
  rw [encodedFrame, unpackFrame_set_crcByte, unpackFrame_repackFrame]

theorem messageCrc_encodedFrame : messageCrc (encodedFrame o f) = (encodedFrame o f)[11] := by
  have hbyte : (encodedFrame o f)[11] = messageCrc (repackFrame f (rsEncode o (unpackFrame f))) :=
    Vector.getElem_set_self _
  have hmessage : messageCrc (encodedFrame o f) = messageCrc (repackFrame f (rsEncode o (unpackFrame f))) := by
    simp [messageCrc, encodedFrame_getElem_of_lt]
  rw [hmessage, hbyte]

end EncodedFrame

/-- The encode direction up to the CRC, which it answers. -/
theorem runOk_encode {s : State} (hc : LegalConfig s.cfg) :
    ∃ t, runOk [.unpack, .rsenc, .repack, .crcfr] s = some t ∧ t.cfg = s.cfg ∧
      t.fr = repackFrame s.fr (rsEncode s.cfg.order (unpackFrame s.fr)) ∧
      t.resp = some ⟨.ok, zext (frameCrc t.fr)⟩ := by
  rw [runOk_cons (exec_unpack hc) rfl, runOk_cons (exec_rsenc ?_) rfl, runOk_cons (exec_repack ?_) rfl,
    runOk_cons (exec_crcfr ?_) rfl]
  · exact ⟨_, rfl, by simp⟩
  all_goals simpa using hc

theorem runOk_wrfr {s : State} (hc : LegalConfig s.cfg) {i : BitVec 4} (hi : i.toNat < 12) (imm : Byte) :
    ∃ t, runOk [.wrfr i imm] s = some t ∧ t.cfg = s.cfg ∧ t.fr = s.fr.set i.toNat imm := by
  rw [runOk_cons (exec_wrfr hc hi imm) rfl]
  exact ⟨_, rfl, rfl, rfl⟩

theorem rsDecode_codeword {o : SymbolOrder} {cw : Codeword} (h : IsCodeword o cw) : rsDecode o cw = some cw := by
  obtain ⟨F, _, φ, hφ⟩ := exists_symbolField
  exact if_pos ((syndromes_eq_zero_iff hφ o cw).2 h)

/-- The decode direction leaves a valid frame as it is when its symbols are a codeword and its CRC byte is right. -/
theorem runOk_decode {s : State} (hc : LegalConfig s.cfg) (hstatic : StaticFields s.fr)
    (hcode : IsCodeword s.cfg.order (unpackFrame s.fr)) (hcrc : messageCrc s.fr = s.fr[11]) :
    ∃ t, runOk [.validate, .unpack, .rsdec, .repack, .crcfix] s = some t ∧ t.fr = s.fr ∧ t.resp = some ⟨.ok, 0⟩ := by
  rw [runOk_cons (exec_validate_ok hc hstatic) rfl, runOk_cons (exec_unpack ?_) rfl,
    runOk_cons (exec_rsdec_some ?_ (rsDecode_codeword ?hcode)) rfl, runOk_cons (exec_repack ?_) rfl,
    runOk_cons (exec_crcfix_pass ?_ ?hcrc) rfl]
  · exact ⟨_, rfl, by simp [repackFrame_unpackFrame]⟩
  case hcrc => simpa [repackFrame_unpackFrame] using hcrc
  case hcode => simpa using hcode
  all_goals simpa using hc

/-- Settles O50: the encode direction leaves `encodedFrame`, whose symbols are a codeword and whose CRC byte is right. -/
theorem encodedFramesDecodeUnchanged : Obligations.EncodedFramesDecodeUnchanged := by
  obtain ⟨F, _, φ, hφ⟩ := exists_symbolField
  intro s hc hstatic
  obtain ⟨t, hencode, htcfg, htfr, hresp⟩ := runOk_encode hc
  obtain ⟨u, hwrfr, hucfg, hufr⟩ := runOk_wrfr (htcfg ▸ hc) (i := 11) (by decide) (frameCrc t.fr)
  have hcfg : u.cfg = s.cfg := hucfg.trans htcfg
  have hfr : u.fr = encodedFrame s.cfg.order s.fr := hufr.trans (by rw [htfr]; rfl)
  have hcode : IsCodeword u.cfg.order (unpackFrame u.fr) := by
    rw [hcfg, hfr, unpackFrame_encodedFrame]
    exact rsEncode_isCodeword hφ _ _
  have hcrc : messageCrc u.fr = u.fr[11] := by
    rw [hfr]
    exact messageCrc_encodedFrame _ _
  obtain ⟨v, hdecode, hvfr, hvresp⟩ :=
    runOk_decode (hcfg ▸ hc) (hfr ▸ encodedFrame_staticFields _ _ hstatic) hcode hcrc
  refine ⟨t, u, v, frameCrc t.fr, hencode, hresp, hwrfr, fun n hn => ?_, hdecode, hvfr, hvresp⟩
  rw [hfr]
  exact encodedFrame_bit _ _ hn

end Sys2Proof.Machine

/-! The statements of spec/46_pipeline.md. The words and the answers of the two system commands; then PUSH: the state of its
step 4 is that of the unit commands BUFPUSH, CORR and LOOKUP run one after the other, and what it does with a complete frame is
said once (`FrameOutcome`). -/

namespace Sys2Proof

open Sys2Proof.Machine

/-! ## The words of the system commands -/

/-- Each of the two opcodes belongs to one command. -/
theorem systemCommand_of_opcode (i : Instr) : (i.opcode = 0x00 → i = .nop) ∧ (i.opcode = 0x01 → i = .init) := by
  cases i <;> simp [Instr.opcode]

theorem nop_decodesExactly : DecodesExactly 0x00 (fun w i => w = 0x00000000 ∧ i = .nop) :=
  decodesExactly_single rfl rfl rfl fun i => (systemCommand_of_opcode i).1

theorem init_decodesExactly : DecodesExactly 0x01 (fun w i => w = 0x01000000 ∧ i = .init) :=
  decodesExactly_single rfl rfl rfl fun i => (systemCommand_of_opcode i).2

end Sys2Proof

namespace Sys2Proof.Machine

/-! ## NOP and INIT (spec/46_pipeline.md R240, R241) -/

theorem exec_nop {s : State} (hc : LegalConfig s.cfg) : exec .nop s = .next (s.reply .ok 0) :=
  commit_some ((configLegal_iff _).2 hc)

theorem exec_init {s : State} (hc : LegalConfig s.cfg) : exec .init s = .next (s.resetCore.reply .ok 0) :=
  commit_some ((configLegal_iff _).2 hc)

/-- Settles O20: NOP only answers. -/
theorem nopChangesNothing : Obligations.NopChangesNothing :=
  ⟨nop_decodesExactly, fun _ hc => exec_nop hc⟩

/-- Settles O21: the listed values are those of `State.resetCore`. -/
theorem initRestoresTheResetValues : Obligations.InitRestoresTheResetValues :=
  ⟨init_decodesExactly, fun _ hc => exec_init hc⟩

/-! ## No command reads the response port -/

/-- The line bits depend on the samples and the configuration alone. -/
theorem lineBit_congr {s t : State} (hcfg : t.cfg = s.cfg) (hsmp : t.smp = s.smp) (start : Nat) (b : Bool) (n : Nat) :
    lineBit t start b n = lineBit s start b n := by
  have htoggles : ∀ p, toggles t p = toggles s p := fun p => by simp only [toggles, hcfg, hsmp]
  induction n with
  | zero => rw [lineBit, lineBit, htoggles]
  | succ n ih => rw [lineBit, lineBit, ih, htoggles, hcfg]

theorem readsSync_reply {s : State} {st : Status} {d : Data} {p : Nat} : ReadsSync (s.reply st d) p ↔ ReadsSync s p :=
  forall₂_congr fun _ _ => by rw [lineBit_congr (s := s) (t := s.reply st d) rfl rfl]

section Reply

variable {s : State} (hs : Inv s) (st : Status) (d : Data)
include hs

theorem Inv.reply : Inv (s.reply st d) := hs.of_sameWindow ((SameWindow.refl s).reply st d)

/-- The match of CORR is said in terms of the samples. -/
theorem exec_corr_reply : exec .corr (s.reply st d) = exec .corr s := by
  obtain ⟨m, hm, htaps⟩ := corr_spec hs
  obtain ⟨m', hm', htaps'⟩ := corr_spec (hs.reply st d)
  obtain rfl : m' = m := Bool.eq_iff_iff.2 (htaps'.trans htaps.symm)
  rw [exec_corr hs.config hm, exec_corr (hs.reply st d).config hm']
  rfl

/-- The answer of LOOKUP is said in terms of the flags and the line bits. -/
theorem exec_lookup_reply : exec .lookup (s.reply st d) = exec .lookup s := by
  have hr := hs.reply st d
  cases hfound : firstFlag s (s.cfg.len - 15 * s.cfg.spb) with
  | none =>
    have hnone := firstFlag_none hfound
    rw [exec_lookup_of_no_flag hs hnone, exec_lookup_of_no_flag hr hnone]
    rfl
  | some p =>
    by_cases hsync : ReadsSync s p
    · rw [exec_lookup_of_sync hs hfound hsync, exec_lookup_of_sync hr hfound (readsSync_reply.2 hsync)]
      rfl
    · rw [exec_lookup_of_not_sync hs hfound hsync, exec_lookup_of_not_sync hr hfound (mt readsSync_reply.1 hsync)]
      rfl

end Reply

/-! ## PUSH up to step 4 (spec/46_pipeline.md R231 steps 1 to 3) -/

/-- The state a PUSH of `v` has searched: the sample appended, the flags and MS as CORR and LOOKUP leave them. -/
def State.searched (s : State) (v : Sample) (flg : List Bool) (ms : Nat) : State :=
  ((s.bufpush v).setFlg flg).setMs ms

/-- BUFPUSH and CORR as commands leave what steps 1 and 2 leave. -/
theorem corr_of_exec {s u w : State} {v : Sample} (hs : Inv s) (hu : exec (.bufpush v) s = .next u)
    (hw : exec .corr u = .next w) :
    ∃ flg m d, (s.bufpush v).corr = some (s.searched v flg (s.ms - 1), m) ∧
      w = (s.searched v flg (s.ms - 1)).reply .ok d := by
  obtain rfl := commit_some_eq_next hu
  obtain ⟨m, hm, -⟩ := corr_spec (bufpush_inv hs v)
  rw [exec_corr_reply (bufpush_inv hs v), exec_corr (bufpush_inv hs v).config hm, Host.Outcome.next.injEq] at hw
  exact ⟨(s.bufpush v).flg.set (tapPosition (s.bufpush v).cfg 15) m, m, boolData m, hm, hw.symm⟩

theorem push_eq_takeFrame {s c y : State} {v : Sample} {m : Bool} (hc : (s.bufpush v).corr = some (c, m))
    (hy : searchSync c = some y) : s.push v = takeFrame y := by
  simp only [State.push, hc, hy]

theorem searchSync_of_known {c : State} (h : c.awaitingSync = false) : searchSync c = some c := by
  simp [searchSync, h]

section Search

variable {c x : State} (hsearching : c.awaitingSync = true) (hx : exec .lookup c = .next x)
include hsearching hx

theorem searchSync_of_miss (hmiss : x.resp = some ⟨.fail, 0⟩) : searchSync c = some (c.setMs x.ms) := by
  obtain ⟨⟨z, _ | p⟩, hl, rfl⟩ := Option.map_eq_some_iff.1 (commit_next hx).2
  · have hz := lookup_eq_setMs hl
    simp only [searchSync, hsearching, hl, if_true]
    exact congrArg some hz
  · simp at hmiss

theorem searchSync_of_hit (hhit : x.resp ≠ some ⟨.fail, 0⟩) :
    searchSync c = some ((c.setMs x.ms).setAwaitingSync false) ∧ ∃ d, x = (c.setMs x.ms).reply .ok d := by
  obtain ⟨⟨z, _ | p⟩, hl, rfl⟩ := Option.map_eq_some_iff.1 (commit_next hx).2
  · exact absurd rfl hhit
  · have hz : z = c.setMs z.ms := lookup_eq_setMs hl
    simp only [searchSync, hsearching, hl, if_true]
    exact ⟨congrArg (fun t => some (t.setAwaitingSync false)) hz, zext (BitVec.ofNat 16 p),
      congrArg (fun t => t.reply .ok (zext (BitVec.ofNat 16 p))) hz⟩

end Search

/-! ## Step 4 -/

theorem takeFrame_of_not_ready {y : State} (h : frameReady y = false) : takeFrame y = some (y, []) := by
  rw [takeFrame, h]
  rfl

theorem frameReady_of_searching {y : State} (h : y.awaitingSync = true) : frameReady y = false := by
  rw [frameReady, h]
  rfl

theorem frameReady_of_incomplete {y : State} (h : y.cfg.len - 1 < y.ms + 95 * y.cfg.spb) : frameReady y = false := by
  rw [frameReady, decide_eq_false (Nat.not_le.2 h), Bool.and_false]

/-- A complete frame behind a known start is extracted, and its bytes are the line bits from MS on. -/
theorem takeFrame_of_complete {y : State} (hs : Inv y) (hknown : y.awaitingSync = false)
    (hfits : y.ms + 95 * y.cfg.spb ≤ y.cfg.len - 1) :
    ∃ f first, takeFrame y = some (processFrame first (y.setFr f)) ∧ y.idx[y.ms]? = some first ∧
      ∀ n, n < 96 → frameBit f n = lineBit y y.ms true n := by
  have hlen := hs.config.len_ge
  obtain ⟨f, hextract, hbits⟩ := extract_streamBits hs hfits
  obtain ⟨-, -, ⟨first, hfirst⟩⟩ := hs.window.read (p := y.ms) (by omega)
  have hready : frameReady y = true := by rw [frameReady, hknown, decide_eq_true hfits]; rfl
  have hidx : (y.setFr f).readIdx (y.setFr f).ms = some first := hfirst
  exact ⟨f, first, by simp only [takeFrame, hready, if_true, hextract, hidx], hfirst, hbits⟩

theorem searched_kept (s : State) (v : Sample) (flg : List Bool) (ms : Nat) :
    (s.searched v flg ms).cfg = s.cfg ∧ (s.searched v flg ms).port = s.port ∧ (s.searched v flg ms).cw = s.cw ∧
      (s.searched v flg ms).crc = s.crc :=
  ⟨rfl, rfl, rfl, rfl⟩

/-- The state `x` of step 4 with a complete frame is, but for the response, the state that PUSH itself takes the frame from. -/
theorem FrameComplete.push_eq {s x : State} {v : Sample} (hs : Inv s) (h : FrameComplete s v x) :
    ∃ a d, x = a.reply .ok d ∧ Inv a ∧ (a.cfg = s.cfg ∧ a.port = s.port ∧ a.cw = s.cw ∧ a.crc = s.crc) ∧
      a.ms + 95 * a.cfg.spb ≤ a.cfg.len - 1 ∧ s.push v = takeFrame (a.setAwaitingSync false) := by
  obtain ⟨u, w, hu, hw, hstart, hfits⟩ := h
  obtain ⟨flg, m, d, hcorr, rfl⟩ := corr_of_exec hs hu hw
  have hinv := corr_inv (bufpush_inv hs v) hcorr
  rcases hstart with ⟨hknown, rfl⟩ | ⟨hsearching, hx, hhit⟩
  · have hsame : (s.searched v flg (s.ms - 1)).setAwaitingSync false = s.searched v flg (s.ms - 1) := by
      rw [← hknown]; rfl
    refine ⟨_, d, rfl, hinv, searched_kept s v flg _, hfits, ?_⟩
    rw [hsame]
    exact push_eq_takeFrame hcorr (searchSync_of_known hknown)
  · rw [exec_lookup_reply hinv] at hx
    have hsearching' : (s.searched v flg (s.ms - 1)).awaitingSync = true := hsearching
    obtain ⟨hsearch, d', hxeq⟩ := searchSync_of_hit hsearching' hx hhit
    have hfound := searchSync_inv hinv hsearch
    refine ⟨_, d', hxeq, ⟨hfound.config, hfound.window, hfound.ms_le⟩, searched_kept s v flg x.ms, ?_,
      push_eq_takeFrame hcorr hsearch⟩
    rw [hxeq] at hfits
    exact hfits

/-! ## What PUSH leaves as it is, and where it leaves MS -/

theorem searchSync_frame {c y : State} (h : searchSync c = some y) :
    y = { c with ms := y.ms, awaitingSync := y.awaitingSync } := by
  rcases searchSync_cases h with ⟨-, rfl⟩ | ⟨z, p, -, hl, rfl⟩ | ⟨-, hl⟩
  · rfl
  · rw [lookup_eq_setMs hl]; rfl
  · rw [lookup_eq_setMs hl]; rfl

theorem takeFrame_frame {y : State} {r : State × List Event} (hs : Inv y) (h : takeFrame y = some r) :
    r.1 = { y with
      ms := r.1.ms, awaitingSync := r.1.awaitingSync, fr := r.1.fr, cw := r.1.cw, crc := r.1.crc } := by
  rcases takeFrame_spec hs with ⟨-, hnone⟩ | ⟨f, bit, first, -, -, -, hframe⟩
  · obtain rfl := Option.some.inj (hnone.symm.trans h)
    rfl
  · obtain rfl := Option.some.inj (hframe.symm.trans h)
    rw [processFrame_frame]
    rfl

theorem push_frame {s c : State} {v : Sample} {m : Bool} {r : State × List Event} (hs : Inv s)
    (hcorr : (s.bufpush v).corr = some (c, m)) (h : s.push v = some r) :
    r.1 = { c with
      ms := r.1.ms, awaitingSync := r.1.awaitingSync, fr := r.1.fr, cw := r.1.cw, crc := r.1.crc } := by
  have hc := corr_inv (bufpush_inv hs v) hcorr
  obtain ⟨y, hy⟩ := searchSync_total hc
  have htake : takeFrame y = some r := (push_eq_takeFrame hcorr hy).symm.trans h
  have hr := takeFrame_frame (searchSync_inv hc hy) htake
  rw [hr, searchSync_frame hy]

/-! ## PUSH without a complete frame (spec/46_pipeline.md R231 steps 1 to 4) -/

/-- Settles O53: after CORR each of the three cases gives the search its answer, and without a complete frame behind a known
start step 4 does nothing. -/
theorem pushRunsTheWindowCommandsInOrder : Obligations.PushRunsTheWindowCommandsInOrder := by
  intro s u w v hs hu hw
  obtain ⟨flg, m, d, hcorr, rfl⟩ := corr_of_exec hs hu hw
  have hinv := corr_inv (bufpush_inv hs v) hcorr
  obtain ⟨-, -, -, r, -, -, -, hpush, -, -⟩ := push_spec hs v
  have hframe := push_frame hs hcorr hpush
  -- What the three cases have in common: the search leads to a state in which no frame is ready.
  have hwait : ∀ {y : State}, searchSync (s.searched v flg (s.ms - 1)) = some y → frameReady y = false → r = (y, []) :=
    fun hy hready => Option.some.inj
      (hpush.symm.trans ((push_eq_takeFrame hcorr hy).trans (takeFrame_of_not_ready hready)))
  refine ⟨_, exec_push hs.config hpush, (congrArg State.smp hframe :), (congrArg State.flg hframe :),
    (congrArg State.idx hframe :), (congrArg State.cnt hframe :), (congrArg State.cfg hframe :),
    (congrArg State.port hframe :), ?_, ?_, ?_⟩
  · intro x hsearching hx hmiss
    rw [exec_lookup_reply hinv] at hx
    have hsearching' : (s.searched v flg (s.ms - 1)).awaitingSync = true := hsearching
    obtain rfl := hwait (searchSync_of_miss hsearching' hx hmiss) (frameReady_of_searching hsearching')
    exact ⟨rfl, hsearching, rfl, rfl, rfl, rfl⟩
  · intro x hsearching hx hhit hbeyond
    rw [exec_lookup_reply hinv] at hx
    have hsearching' : (s.searched v flg (s.ms - 1)).awaitingSync = true := hsearching
    obtain rfl := hwait (searchSync_of_hit hsearching' hx hhit).1 (frameReady_of_incomplete hbeyond)
    exact ⟨rfl, rfl, rfl, rfl, rfl, rfl⟩
  · intro hknown hbeyond
    obtain rfl := hwait (searchSync_of_known hknown) (frameReady_of_incomplete hbeyond)
    exact ⟨rfl, hknown, rfl, rfl, rfl, rfl⟩

/-! ## The lower bound of MS in a wide window (spec/46_pipeline.md R242 d) -/

/-- A hit may leave MS where it is; a miss moves it up. -/
theorem searchSync_ms {c y : State} (hs : Inv c) (h : searchSync c = some y) :
    (y.awaitingSync = false ∧ c.ms ≤ y.ms) ∨
      (y.awaitingSync = true ∧ (y.ms = c.cfg.len - 15 * c.cfg.spb ∨ c.ms < y.ms)) := by
  have hspb := hs.config.spb_pos
  rcases searchSync_cases h with ⟨hknown, rfl⟩ | ⟨z, p, -, hl, rfl⟩ | ⟨hsearching, hl⟩
  · exact .inl ⟨hknown, Nat.le_refl _⟩
  · rcases lookup_cases hl with ⟨-, -, hr⟩ | ⟨q, hq, ⟨-, rfl, -⟩ | ⟨-, -, hr⟩⟩
    · cases hr
    · exact .inl ⟨rfl, (firstFlag_some hq).1⟩
    · cases hr
  · refine .inr ⟨by rw [lookup_eq_setMs hl]; exact hsearching, ?_⟩
    rcases lookup_cases hl with ⟨-, rfl, -⟩ | ⟨q, hq, ⟨-, -, hr⟩ | ⟨-, rfl, -⟩⟩
    · exact .inl rfl
    · cases hr
    · have hqms := (firstFlag_some hq).1
      rw [State.setMs_ms]
      omega

/-- The append takes one position; the search that misses, or the frame at the bound, which is then complete, gives it back. -/
theorem push_ms_bound {s : State} {v : Sample} {r : State × List Event} (hs : Inv s)
    (hms : s.cfg.len - 95 * s.cfg.spb ≤ s.ms) (h : s.push v = some r) : s.cfg.len - 95 * s.cfg.spb ≤ r.1.ms := by
  obtain ⟨c, m, y, r', hcorr, hy, htake, hpush, hc, hyinv⟩ := push_spec hs v
  obtain rfl := Option.some.inj (hpush.symm.trans h)
  obtain rfl := corr_eq_some hcorr
  have hcfg : y.cfg = s.cfg := by rw [searchSync_frame hy]; rfl
  have hstart := searchSync_ms hc hy
  simp only [State.setFlg_ms, State.setFlg_cfg, State.bufpush_ms, State.bufpush_cfg] at hstart
  rcases takeFrame_spec hyinv with ⟨hready, hnone⟩ | ⟨f, bit, first, -, -, -, hframe⟩
  · obtain rfl := Option.some.inj (hnone.symm.trans htake)
    show s.cfg.len - 95 * s.cfg.spb ≤ y.ms
    rcases hstart with ⟨hknown, -⟩ | ⟨-, hmoved⟩
    · have hbeyond : ¬ y.ms + 95 * y.cfg.spb ≤ y.cfg.len - 1 := by simpa [frameReady, hknown] using hready
      rw [hcfg] at hbeyond
      omega
    · omega
  · obtain rfl := Option.some.inj (hframe.symm.trans htake)
    have hend := processFrame_ms first (y.setFr f)
    simp only [State.setFr_ms, State.setFr_cfg, hcfg] at hend
    have hspb := hs.config.spb_pos
    omega

/-- Settles O58: the bound (`push_ms_bound`) keeps MS above 0. -/
theorem pushNeverFillsAWideWindow : Obligations.PushNeverFillsAWideWindow := by
  refine ⟨fun c => Nat.sub_le _ _, fun s v hs hwide hms => ?_⟩
  obtain ⟨-, -, -, r, -, -, -, hpush, -, -⟩ := push_spec hs v
  have hbound := push_ms_bound hs hms hpush
  have hne : r.1.ms ≠ 0 := by omega
  exact ⟨_, exec_push hs.config hpush, hbound, by rw [State.replyWith_resp, boolData_bufferFull, if_neg hne]⟩

/-! ## What becomes of a complete frame (spec/46_pipeline.md R231 steps 5 to 7) -/

/-- `h` is what SK1 repair makes of `g`: `g` itself if its CRC is right, else `g` with SK1 flipped if that makes it right. -/
inductive Repaired (g : Frame) : Frame → Prop where
  | kept (h : messageCrc g = g[11]) : Repaired g g
  | flipped (h : messageCrc g ≠ g[11]) (hflip : messageCrc (withSk1Flipped g) = g[11]) : Repaired g (withSk1Flipped g)

/-- SK1 repair fails: the CRC is wrong with SK1 either way. -/
def Irreparable (g : Frame) : Prop := messageCrc g ≠ g[11] ∧ messageCrc (withSk1Flipped g) ≠ g[11]

theorem Repaired.messageCrc_eq {g h : Frame} (hr : Repaired g h) : messageCrc h = h[11] := by
  cases hr with
  | kept hcrc => exact hcrc
  | flipped _ hflip => rw [hflip, withSk1Flipped_crcByte]

/-- SK1 is no part of a symbol. -/
theorem unpackFrame_withSk1Flipped (g : Frame) : unpackFrame (withSk1Flipped g) = unpackFrame g := by
  have hlow : (g[7] ^^^ 1#8).extractLsb' 1 4 = g[7].extractLsb' 1 4 := by simp [BitVec.extractLsb'_xor]
  have hhigh : (g[7] ^^^ 1#8).extractLsb' 5 3 = g[7].extractLsb' 5 3 := by simp [BitVec.extractLsb'_xor]
  simp [unpackFrame, withSk1Flipped, hlow, hhigh]

theorem Repaired.unpackFrame_eq {g h : Frame} (hr : Repaired g h) : unpackFrame h = unpackFrame g := by
  cases hr with
  | kept => rfl
  | flipped => exact unpackFrame_withSk1Flipped g

theorem crcfix_of_repaired {s : State} {h : Frame} (hr : Repaired s.fr h) :
    ∃ b, s.crcfix = ((s.setCrc h[11]).setFr h, some b) := by
  have hcrc := hr.messageCrc_eq
  rw [← hcrc]
  cases hr with
  | kept hkept => exact ⟨false, if_pos hkept⟩
  | flipped hne hflip => exact ⟨true, (if_neg hne).trans (if_pos hflip)⟩

theorem crcfix_of_irreparable {s : State} (h : Irreparable s.fr) :
    s.crcfix = (s.setCrc (messageCrc (withSk1Flipped s.fr)), none) :=
  (if_neg h.1).trans (if_neg h.2)

theorem repaired_or_irreparable (g : Frame) : (∃ h, Repaired g h) ∨ Irreparable g := by
  by_cases h : messageCrc g = g[11]
  · exact .inl ⟨g, .kept h⟩
  · by_cases hflip : messageCrc (withSk1Flipped g) = g[11]
    · exact .inl ⟨_, .flipped h hflip⟩
    · exact .inr ⟨h, hflip⟩

/-- What becomes of the frame in FR: the state and the events after it. -/
inductive FrameOutcome (first : Word) (s : State) : State × List Event → Prop where
  | invalid (hstatic : ¬ StaticFields s.fr) : FrameOutcome first s (s.recover, [])
  | rsFailed (hstatic : StaticFields s.fr) (hrs : rsDecode s.cfg.order (unpackFrame s.fr) = none) :
      FrameOutcome first s (s.unpack.recover, [.rawFrame s.fr first, .error .rsCorrectionFailed])
  | crcFailed (cw : Codeword) (hstatic : StaticFields s.fr) (hrs : rsDecode s.cfg.order (unpackFrame s.fr) = some cw)
      (hcrc : Irreparable (repackFrame s.fr cw)) :
      FrameOutcome first s
        (((s.setCw cw).repack.setCrc (messageCrc (withSk1Flipped (repackFrame s.fr cw)))).recover,
          [.rawFrame s.fr first, .rsFrame (repackFrame s.fr cw) first, .error .crcCorrectionFailed])
  | decoded (cw : Codeword) (h : Frame) (hstatic : StaticFields s.fr)
      (hrs : rsDecode s.cfg.order (unpackFrame s.fr) = some cw) (hcrc : Repaired (repackFrame s.fr cw) h) :
      FrameOutcome first s
        ((((s.setCw cw).setCrc h[11]).setFr (descramble h)).passFrame,
          [.rawFrame s.fr first, .rsFrame (repackFrame s.fr cw) first, .crcFrame h first,
            .timeData (timeDataOf (descramble h)) first])

theorem processFrame_outcome (first : Word) (s : State) : FrameOutcome first s (processFrame first s) := by
  by_cases hstatic : StaticFields s.fr
  · have hok := (staticFieldsOk_iff _).2 hstatic
    cases hrs : rsDecode s.cfg.order (unpackFrame s.fr) with
    | none =>
      have hdec : s.unpack.rsdec = none := by simp [State.rsdec, hrs]
      simp only [processFrame, correctFrame, hok, if_true, hdec]
      exact .rsFailed hstatic hrs
    | some cw =>
      have hdec : s.unpack.rsdec = some (s.unpack.setCw cw) := by simp [State.rsdec, hrs]
      rcases repaired_or_irreparable (repackFrame s.fr cw) with ⟨h, hcrc⟩ | hcrc
      · obtain ⟨b, hfix⟩ := crcfix_of_repaired (s := (s.unpack.setCw cw).repack) hcrc
        simp only [processFrame, correctFrame, finishFrame, hok, if_true, hdec, hfix]
        exact .decoded cw h hstatic hrs hcrc
      · have hfix := crcfix_of_irreparable (s := (s.unpack.setCw cw).repack) hcrc
        simp only [processFrame, correctFrame, finishFrame, hok, if_true, hdec, hfix]
        exact .crcFailed cw hstatic hrs hcrc
  · have hbad : staticFieldsOk s.fr ≠ true := mt (staticFieldsOk_iff _).1 hstatic
    simp only [processFrame, if_neg hbad]
    exact .invalid hstatic

/-- A frame writes MS, AS, FR, CW and CRC alone, and leaves AS true. -/
theorem FrameOutcome.frame {first : Word} {s : State} {r : State × List Event} (h : FrameOutcome first s r) :
    r.1 = { s with ms := r.1.ms, awaitingSync := true, fr := r.1.fr, cw := r.1.cw, crc := r.1.crc } := by
  cases h <;> rfl

/-! ## PUSH with a complete frame (spec/46_pipeline.md R231, R239) -/

/-- A PUSH with a complete frame: what it leaves is the outcome of the frame that EXTRACT reads in the state of step 4. -/
theorem FrameComplete.push_outcome {s x : State} {v : Sample} (hs : Inv s) (h : FrameComplete s v x) :
    ∃ (a : State) (d d' : Data) (f : Frame) (first : Word) (r : State × List Event), x = a.reply .ok d ∧
      (a.cfg = s.cfg ∧ a.port = s.port ∧ a.cw = s.cw ∧ a.crc = s.crc) ∧
      exec (.push v) s = .next (r.1.replyWith .ok (boolData (bufferFull r.1)) r.2) ∧
      FrameOutcome first ((a.setAwaitingSync false).setFr f) r ∧
      exec (.extract (BitVec.ofNat 16 a.ms)) x = .next ((a.setFr f).reply .ok d') ∧
      a.idx[a.ms]? = some first ∧ ∀ n, n < 96 → frameBit f n = lineBit x a.ms true n := by
  obtain ⟨a, d, rfl, hinv, hkept, hfits, hpush⟩ := h.push_eq hs
  have hready : Inv (a.setAwaitingSync false) := ⟨hinv.config, hinv.window, hinv.ms_le⟩
  obtain ⟨f, first, htake, hfirst, hbits⟩ := takeFrame_of_complete hready rfl hfits
  obtain ⟨g, hextract, hgbits⟩ := extract_streamBits (hinv.reply .ok d) hfits
  have hlines : ∀ n, lineBit (a.reply .ok d) a.ms true n = lineBit (a.setAwaitingSync false) a.ms true n :=
    lineBit_congr (s := a.setAwaitingSync false) (t := a.reply .ok d) rfl rfl a.ms true
  obtain rfl : g = f := frame_ext fun n hn => (hgbits n hn).trans ((hlines n).trans (hbits n hn).symm)
  have hpos : positionOf (BitVec.ofNat 16 a.ms) = a.ms := by
    have hms := hinv.ms_le
    have hlen := hinv.config.len_le
    rw [positionOf, BitVec.toNat_ofNat, Nat.mod_eq_of_lt (by omega)]
  rw [← hpos] at hextract
  have hread := exec_extract_ok (t := (a.reply .ok d).setFr g) (hinv.reply .ok d).config hextract
  exact ⟨a, d, _, g, first, _, rfl, hkept, exec_push hs.config (hpush.trans htake), processFrame_outcome _ _,
    hread, hfirst, hgbits⟩

/-! ### The unit commands on a frame

What they answer is said field by field: the states between them stay unopened. -/

/-- The unit commands UNPACK, RSDEC and REPACK on a frame whose symbols are corrected. -/
theorem exec_unpack_rsdec_repack {e : State} {cw : Codeword} (hc : LegalConfig e.cfg)
    (hrs : rsDecode e.cfg.order (unpackFrame e.fr) = some cw) :
    ∃ p d r, exec .unpack e = .next p ∧ exec .rsdec p = .next d ∧ exec .repack d = .next r ∧
      d.resp ≠ some ⟨.fail, 0⟩ ∧ d.cw = cw ∧ r.fr = repackFrame e.fr cw ∧ LegalConfig r.cfg := by
  have hd : exec .rsdec (e.unpack.reply .ok 0) = .next ((e.setCw cw).reply .ok 0) :=
    exec_rsdec_some (s := e.unpack.reply .ok 0) hc hrs
  exact ⟨_, _, _, exec_unpack hc, hd, exec_repack (s := (e.setCw cw).reply .ok 0) hc, by simp, rfl, rfl, hc⟩

/-- The unit commands UNPACK and RSDEC on a frame whose symbols are not. -/
theorem exec_unpack_rsdec_fail {e : State} (hc : LegalConfig e.cfg)
    (hrs : rsDecode e.cfg.order (unpackFrame e.fr) = none) :
    exec .unpack e = .next (e.unpack.reply .ok 0) ∧
      exec .rsdec (e.unpack.reply .ok 0) = .next (e.unpack.reply .fail 0) :=
  ⟨exec_unpack hc, exec_rsdec_none (s := e.unpack.reply .ok 0) hc hrs⟩

theorem exec_crcfix_of_irreparable {r : State} (hc : LegalConfig r.cfg) (h : Irreparable r.fr) :
    ∃ c, exec .crcfix r = .next c ∧ c.resp = some ⟨.fail, 0⟩ ∧ c.crc = messageCrc (withSk1Flipped r.fr) :=
  ⟨_, exec_crcfix_neither hc h.1 h.2, rfl, rfl⟩

/-- CRCFIX on a frame that SK1 repair makes right, and DESCR after it. -/
theorem exec_crcfix_descr {r : State} {h : Frame} (hc : LegalConfig r.cfg) (hr : Repaired r.fr h) :
    ∃ c g, exec .crcfix r = .next c ∧ exec .descr c = .next g ∧ c.resp ≠ some ⟨.fail, 0⟩ ∧ c.fr = h ∧ c.crc = h[11] ∧
      g.fr = descramble h := by
  obtain ⟨b, hfix⟩ := crcfix_of_repaired hr
  exact ⟨_, _, exec_crcfix_ok hc hfix, exec_descr (s := ((r.setCrc h[11]).setFr h).reply .ok (boolData b)) hc,
    by simp, rfl, rfl, rfl⟩

/-! ### The registers after any PUSH -/

/-- Any PUSH: no frame is taken, or one frame of the state after the search, which has the registers of `s`. -/
theorem push_outcome {s : State} (hs : Inv s) (v : Sample) :
    ∃ y r, s.push v = some r ∧ (y.fr = s.fr ∧ y.cw = s.cw ∧ y.crc = s.crc) ∧
      (r = (y, []) ∨ ∃ f first, FrameOutcome first (y.setFr f) r) := by
  obtain ⟨c, m, y, r, hcorr, hy, htake, hpush, -, hyinv⟩ := push_spec hs v
  obtain rfl := corr_eq_some hcorr
  have hframe := searchSync_frame hy
  refine ⟨y, r, hpush, ⟨(congrArg State.fr hframe :), (congrArg State.cw hframe :), (congrArg State.crc hframe :)⟩, ?_⟩
  rcases takeFrame_spec hyinv with ⟨-, hnone⟩ | ⟨f, -, first, -, -, -, htaken⟩
  · exact .inl (Option.some.inj (htake.symm.trans hnone))
  · obtain rfl := Option.some.inj (htake.symm.trans htaken)
    exact .inr ⟨f, first, processFrame_outcome first (y.setFr f)⟩

/-- Settles O55: in each outcome (`FrameComplete.push_outcome`, `push_outcome`) the unit commands and the event list tell the
same registers. -/
theorem pushLeavesTheFrameRegisters : Obligations.PushLeavesTheFrameRegisters := by
  refine ⟨fun s x v hs h => ?_, fun s t v hs hexec => ?_⟩
  · obtain ⟨a, d, d', f, first, r, rfl, ⟨hcfg, hport, hcw, hcrc⟩, hpush, hout, hextract, hfirst, hbits⟩ :=
      h.push_outcome hs
    have hconfig : LegalConfig a.cfg := hcfg ▸ hs.config
    have hec : LegalConfig ((a.setFr f).reply .ok d').cfg := hconfig
    have hframe := hout.frame
    refine ⟨_, _, first, hpush, hextract, hfirst, hbits, (congrArg State.awaitingSync hframe :),
      (congrArg State.smp hframe :), (congrArg State.flg hframe :), (congrArg State.idx hframe :),
      (congrArg State.cnt hframe :), (congrArg State.cfg hframe :).trans hcfg,
      (congrArg State.port hframe :).trans hport, ?_⟩
    cases hout with
    | invalid hstatic => exact ⟨fun _ => by simp [hcw, hcrc], fun hvalid => absurd hvalid hstatic⟩
    | rsFailed hstatic hrs =>
      refine ⟨fun hinvalid => absurd hstatic hinvalid, fun _ => ?_⟩
      obtain ⟨hp, hd⟩ := exec_unpack_rsdec_fail hec hrs
      exact ⟨_, _, hp, hd, fun _ => by simp [hcrc], fun hok => absurd rfl hok⟩
    | crcFailed cw hstatic hrs hbad =>
      refine ⟨fun hinvalid => absurd hstatic hinvalid, fun _ => ?_⟩
      obtain ⟨p, d, r, hp, hd, hr, hdresp, hdcw, hrfr, hrc⟩ := exec_unpack_rsdec_repack hec hrs
      obtain ⟨c, hc, hcresp, hccrc⟩ := exec_crcfix_of_irreparable hrc (hrfr ▸ hbad)
      refine ⟨p, d, hp, hd, fun hfail => absurd hfail hdresp, fun _ =>
        ⟨r, c, hr, hc, fun _ => ?_, fun hok => absurd hcresp hok⟩⟩
      simp [hdcw, hrfr, hccrc]
    | decoded cw fixed hstatic hrs hgood =>
      refine ⟨fun hinvalid => absurd hstatic hinvalid, fun _ => ?_⟩
      obtain ⟨p, d, r, hp, hd, hr, hdresp, hdcw, hrfr, hrc⟩ := exec_unpack_rsdec_repack hec hrs
      obtain ⟨c, g, hc, hg, hcresp, hcfr, hccrc, hgfr⟩ := exec_crcfix_descr hrc (hrfr ▸ hgood)
      refine ⟨p, d, hp, hd, fun hfail => absurd hfail hdresp, fun _ =>
        ⟨r, c, hr, hc, fun hfail => absurd hfail hcresp, fun _ => ⟨g, hg, ?_⟩⟩⟩
      simp [hdcw, hrfr, hcfr, hccrc, hgfr]
  · obtain ⟨y, r, hpush, ⟨hfr, hcw, hcrc⟩, hout⟩ := push_outcome hs v
    obtain rfl := Host.Outcome.next.inj (hexec.symm.trans (exec_push hs.config hpush))
    rcases hout with rfl | ⟨f, first, hout⟩
    · exact ⟨fun _ => ⟨hcw, hcrc, .inl hfr⟩, nofun, nofun, nofun⟩
    · cases hout with
      | invalid hstatic => exact ⟨fun _ => ⟨hcw, hcrc, .inr hstatic⟩, nofun, nofun, nofun⟩
      | rsFailed _ _ =>
        refine ⟨nofun, ?_, nofun, nofun⟩
        rintro _ _ ⟨⟩
        exact ⟨rfl, rfl, hcrc, rfl⟩
      | crcFailed cw _ _ _ =>
        refine ⟨nofun, nofun, ?_, nofun⟩
        rintro _ _ _ ⟨⟩
        exact ⟨rfl, (unpackFrame_repackFrame _ _).symm, rfl, rfl⟩
      | decoded cw fixed _ _ hgood =>
        refine ⟨nofun, nofun, nofun, ?_⟩
        rintro _ _ _ _ _ ⟨⟩
        exact ⟨rfl, (hgood.unpackFrame_eq.trans (unpackFrame_repackFrame _ _)).symm, rfl, rfl, rfl⟩

/-! ## PUSH with a clean frame (spec/46_pipeline.md R234, R235, R238) -/

theorem Repaired.eq_of_messageCrc {g h : Frame} (hr : Repaired g h) (hcrc : messageCrc g = g[11]) : h = g := by
  cases hr with
  | kept => rfl
  | flipped hne => exact absurd hcrc hne

/-- The one outcome of a frame with valid static fields, a codeword and the right CRC. -/
theorem FrameOutcome.of_clean {first : Word} {s : State} {r : State × List Event} (h : FrameOutcome first s r)
    (hstatic : StaticFields s.fr) (hcode : IsCodeword s.cfg.order (unpackFrame s.fr))
    (hcrc : messageCrc s.fr = s.fr[11]) :
    r = ((((s.setCw (unpackFrame s.fr)).setCrc s.fr[11]).setFr (descramble s.fr)).passFrame,
      [.rawFrame s.fr first, .rsFrame s.fr first, .crcFrame s.fr first,
        .timeData (timeDataOf (descramble s.fr)) first]) := by
  have hdec := rsDecode_codeword hcode
  cases h with
  | invalid hinvalid => exact absurd hstatic hinvalid
  | rsFailed _ hrs => cases hdec.symm.trans hrs
  | crcFailed cw _ hrs hbad =>
    obtain rfl := Option.some.inj (hdec.symm.trans hrs)
    rw [repackFrame_unpackFrame] at hbad
    exact absurd hcrc hbad.1
  | decoded cw h _ hrs hgood =>
    obtain rfl := Option.some.inj (hdec.symm.trans hrs)
    rw [repackFrame_unpackFrame] at hgood ⊢
    rw [hgood.eq_of_messageCrc hcrc]

/-- Settles O56: the frame that EXTRACT reads is the clean one, and has one outcome. -/
theorem pushDecodesACleanFrame : Obligations.PushDecodesACleanFrame := by
  intro s x v f first hs h hbits hfirst hstatic hcode hcrc
  obtain ⟨a, d, -, g, first', r, rfl, ⟨hcfg, hport, -, -⟩, hpush, hout, -, hfirst', hbits'⟩ := h.push_outcome hs
  obtain rfl : g = f := frame_ext fun n hn => (hbits' n hn).trans (hbits n hn)
  obtain rfl : first' = first := Option.some.inj (hfirst'.symm.trans hfirst)
  rw [← hcfg] at hcode
  obtain rfl := hout.of_clean hstatic hcode hcrc
  have hspb : s.cfg.spb ≠ 0 := Nat.ne_zero_of_lt hs.config.spb_pos
  have hlen : s.cfg.len ≠ 0 := Nat.ne_zero_of_lt hs.config.len_ge
  refine ⟨_, hpush, ?_⟩
  simp [hcfg, hport, boolData_bufferFull, hspb, hlen]

end Sys2Proof.Machine

/-! The statements of spec/60_exceptions.md and spec/70_reset_and_hazards.md. What the block does without a command and
with an illegal word; who emits events, which lists there are and how the port encodes them; and the stuck sequencer. -/

namespace Sys2Proof

open Sys2Proof.Machine

/-! ## Illegal words and the word of PUSH -/

/-- RDBUF's position is the one range that depends on the configuration (spec/30_encoding.md R88). -/
theorem eq_rdbuf_of_not_legalFor {c : Config} {i : Instr} (hwf : i.wellFormed = true) (h : ¬ i.legalFor c = true) :
    ∃ sel pos, i = .rdbuf sel pos ∧ c.len ≤ positionOf pos := by
  cases i with
  | rdbuf sel pos =>
    have hpos : ¬ positionOf pos < c.len := fun hlt => h (decide_eq_true hlt)
    exact ⟨sel, pos, rfl, Nat.le_of_not_lt hpos⟩
  | _ => exact absurd ((Bool.and_true _).trans hwf) h

/-- A word outside the table is rejected by the decoder, or is an RDBUF beyond the window. -/
theorem decode_of_not_matchesTable {c : Config} {w : Word} (hlen : 1 ≤ c.len) (h : ¬ MatchesTable c.len w) :
    (∃ e, decode w = .error e) ∨ ∃ sel pos, decode w = .ok (.rdbuf sel pos) ∧ c.len ≤ positionOf pos := by
  cases hdec : decode w with
  | error e => exact .inl ⟨e, rfl⟩
  | ok i =>
    have hillegal : ¬ i.legalFor c = true := fun hlegal =>
      h ((legalWordsAreTheTablesRows c w hlen).1 ⟨i, hdec, hlegal⟩)
    obtain ⟨sel, pos, rfl, hpos⟩ := eq_rdbuf_of_not_legalFor (decode_faithful w i hdec).1 hillegal
    exact .inr ⟨sel, pos, rfl, hpos⟩

theorem eq_push_of_opcode (i : Instr) (h : i.opcode = 0x60) : ∃ v, i = .push v := by
  cases i <;> simp [Instr.opcode] at h ⊢

theorem push_decodesExactly : DecodesExactly 0x60 (fun w i => ∃ v : Sample, w = makeWord 0x60 0 v ∧ i = .push v) :=
  decodesExactly_family .push (fun _ => rfl) (fun _ => rfl) eq_push_of_opcode fun _ _ => Iff.rfl

end Sys2Proof

namespace Sys2Proof.Machine

/-! ## The steps that run no command -/

section Step

variable {s : State} (hc : LegalConfig s.cfg)
include hc

/-- Nothing is presented (spec/60_exceptions.md R268). -/
theorem step_idle (hport : s.port = []) : step s = .next s := by
  simp only [step, hport]
  exact commit_some ((configLegal_iff _).2 hc)

/-- The reset input is asserted (spec/70_reset_and_hazards.md R280). -/
theorem step_reset {rest : List HostInput} (hport : s.port = .reset :: rest) :
    step s = .next { State.resetWith s.cfg with port := rest } := by
  simp only [step, hport]
  exact commit_some ((configLegal_iff _).2 hc)

/-- A word that the decoder rejects is presented (spec/60_exceptions.md R257). -/
theorem step_rejected {w : Word} {rest : List HostInput} {e : Reject} (hport : s.port = .command w :: rest)
    (hdec : decode w = .error e) : step s = .next (s.setPort rest).illegal := by
  simp only [step, hport, hdec]
  exact commit_some ((configLegal_iff _).2 hc)

end Step

/-- Settles O7: the arm of the step for an empty port. -/
theorem idleBlockHoldsItsState : Obligations.IdleBlockHoldsItsState :=
  fun _ hc hport => step_idle hc hport

/-- Settles O8: the arm of the step for the reset input. -/
theorem resetInputGivesTheResetState : Obligations.ResetInputGivesTheResetState :=
  fun _ _ hc hport => step_reset hc hport

/-- Settles O6: the decoder rejects the word, or RDBUF refuses its position. -/
theorem illegalWordsAnswerIllegal : Obligations.IllegalWordsAnswerIllegal := by
  intro s w rest hc hport hw
  have hlen : 1 ≤ s.cfg.len := Nat.le_trans (by decide) hc.len_ge
  show step s = .next (s.setPort rest).illegal
  rcases decode_of_not_matchesTable hlen hw with ⟨e, hdec⟩ | ⟨sel, pos, hdec, hpos⟩
  · exact step_rejected hc hport hdec
  · rw [step_command hport hdec]
    exact exec_rdbuf_illegal (s := s.setPort rest) hc hpos sel

/-! ## Who emits events (spec/60_exceptions.md R250) -/

/-- Settles O18: INIT answers without an event, and so does every command with one write (`exec_unitWrite`). -/
theorem onlyPushEmitsEvents : Obligations.OnlyPushEmitsEvents := by
  intro i s t h hpush
  by_cases hinit : i = .init
  · subst hinit
    obtain rfl := commit_some_eq_next h
    rfl
  · obtain ⟨u, st, d, -, rfl⟩ := exec_unitWrite h hpush hinit
    rfl

/-! ## The event lists of PUSH (spec/60_exceptions.md R252) -/

/-- Each outcome of a frame has its list. -/
theorem FrameOutcome.events_cases {first : Word} {s : State} {r : State × List Event} (h : FrameOutcome first s r) :
    r.2 = [] ∨ (∃ f n, r.2 = [.rawFrame f n, .error .rsCorrectionFailed]) ∨
      (∃ f g n, r.2 = [.rawFrame f n, .rsFrame g n, .error .crcCorrectionFailed]) ∨
      ∃ f g h d n, r.2 = [.rawFrame f n, .rsFrame g n, .crcFrame h n, .timeData d n] := by
  cases h with
  | invalid => exact .inl rfl
  | rsFailed => exact .inr (.inl ⟨_, _, rfl⟩)
  | crcFailed => exact .inr (.inr (.inl ⟨_, _, _, rfl⟩))
  | decoded => exact .inr (.inr (.inr ⟨_, _, _, _, _, rfl⟩))

/-- Only BUFPUSH counts. -/
theorem push_cnt {s : State} {v : Sample} {r : State × List Event} (hs : Inv s) (h : s.push v = some r) :
    r.1.cnt = s.cnt + 1 := by
  obtain ⟨m, hcorr, -⟩ := corr_spec (bufpush_inv hs v)
  rw [push_frame hs hcorr h]
  rfl

/-- Settles O54: no frame is taken, or the list is that of the frame's outcome. -/
theorem pushEmitsALegalEventList : Obligations.PushEmitsALegalEventList := by
  refine ⟨push_decodesExactly, fun s v hs => ?_⟩
  obtain ⟨y, r, hpush, -, hout⟩ := push_outcome hs v
  refine ⟨_, exec_push hs.config hpush, congrArg (fun d => some (Response.mk .ok d)) (boolData_bufferFull r.1),
    push_cnt hs hpush, ?_⟩
  rcases hout with rfl | ⟨f, first, hframe⟩
  · exact .inl rfl
  · exact hframe.events_cases

/-! ## The event port (spec/60_exceptions.md R250, R253) -/

section Body

variable {n : Nat} (x : BitVec n) (b : Byte) {i : Nat} (hi : i < 8)
include hi

theorem append_byte_getLsbD_low : (x ++ b).getLsbD i = b.getLsbD i := by
  rw [BitVec.getLsbD_append, if_pos hi]

theorem append_byte_getLsbD_high (k : Nat) : (x ++ b).getLsbD (8 * (k + 1) + i) = x.getLsbD (8 * k + i) := by
  have hhigh : ¬ 8 * (k + 1) + i < 8 := by omega
  have hsub : 8 * (k + 1) + i - 8 = 8 * k + i := by omega
  rw [BitVec.getLsbD_append, if_neg hhigh, hsub]

end Body

/-- Byte 11 stands lowest in the body. -/
theorem frameBody_byte (f : Frame) {k i : Nat} (hk : k < 12) (hi : i < 8) :
    (frameBody f).getLsbD (8 * k + i) = f[11 - k].getLsbD i := by
  unfold frameBody
  interval_cases k <;>
    simp only [append_byte_getLsbD_high _ _ hi, append_byte_getLsbD_low _ _ hi, Nat.mul_zero, Nat.zero_add,
      Nat.reduceSub]

theorem frameBody_bit (f : Frame) {n : Nat} (hn : n < 96) : (frameBody f).getLsbD (95 - n) = frameBit f n := by
  have hpos : 95 - n = 8 * (11 - n / 8) + (7 - n % 8) := by omega
  have hbyte : 11 - (11 - n / 8) = n / 8 := by omega
  rw [hpos, frameBody_byte f (by omega) (by omega), frameBit_eq f hn]
  simp only [hbyte]

theorem tzCodeOf_offsetHours (tz : BitVec 2) : tzCodeOf (offsetHours tz) = tz := by
  revert tz
  decide

theorem skCodeOf_transmitterStateOf (sk : BitVec 2) : skCodeOf (transmitterStateOf sk) = sk := by
  revert sk
  decide

/-- T is read back from the seconds, which fit into their word. -/
theorem ofNat_seconds_eq_fieldT (f : Frame) :
    BitVec.ofNat 30 ((timeDataOf f).utcSecondsSince2000.toNat / timeResolution) = fieldT f := by
  have hT := (fieldT f).isLt
  have hfit : timeResolution * (fieldT f).toNat < 2 ^ 64 := by rw [timeResolution]; omega
  rw [timeDataOf, natData_toNat hfit, Nat.mul_div_cancel_left _ (by decide), BitVec.ofNat_toNat, BitVec.setWidth_eq]

/-- The record keeps every field of the message. -/
theorem timeDataWord_timeDataOf (f : Frame) : timeDataWord (timeDataOf f) = fieldsWord f := by
  rw [timeDataWord, ofNat_seconds_eq_fieldT]
  simp only [timeDataOf, tzCodeOf_offsetHours, skCodeOf_transmitterStateOf, fieldsWord]

theorem eventBody_timeData_toNat (f : Frame) (first : Word) :
    (eventBody (.timeData (timeDataOf f) first)).toNat = fieldsValue f := by
  rw [eventBody, timeDataWord_timeDataOf, BitVec.toNat_setWidth_of_le (by decide), fieldsWord_toNat]

/-- Settles O52: the frame's bits stand in order in the body (`frameBody_bit`), and the record gives the FIELDS word
back (`timeDataWord_timeDataOf`). -/
theorem eventPortEncodesTheEvent : Obligations.EventPortEncodesTheEvent := by
  refine fun f first => ⟨?_, rfl, rfl, rfl, rfl, rfl, eventBody_timeData_toNat f first, fun _ => ⟨rfl, rfl⟩, rfl, rfl⟩
  rintro _ (rfl | rfl | rfl) <;> exact ⟨rfl, fun _ hn => frameBody_bit f hn⟩

/-! ## The sequencer in a narrow window (spec/70_reset_and_hazards.md R291 b) -/

/-- Behind a known start the frame can never be complete, so PUSH only appends and correlates. -/
theorem push_eq_of_narrow {s : State} (hs : Inv s) (hnarrow : s.cfg.len ≤ 95 * s.cfg.spb)
    (hknown : s.awaitingSync = false) (v : Sample) : ∃ flg, s.push v = some ((s.bufpush v).setFlg flg, []) := by
  obtain ⟨m, hcorr, -⟩ := corr_spec (bufpush_inv hs v)
  refine ⟨_, (push_eq_takeFrame hcorr (searchSync_of_known hknown)).trans
    (takeFrame_of_not_ready (frameReady_of_incomplete ?_))⟩
  have hlen := hs.config.len_ge
  show s.cfg.len - 1 < s.ms - 1 + 95 * s.cfg.spb
  omega

/-- Settles O59: what the PUSH leaves is what BUFPUSH leaves, but for the flags. -/
theorem pushIsStuckInANarrowWindow : Obligations.PushIsStuckInANarrowWindow := by
  intro s v hs hnarrow hknown
  obtain ⟨flg, hpush⟩ := push_eq_of_narrow hs hnarrow hknown v
  exact ⟨_, exec_push hs.config hpush, rfl, hknown, rfl,
    congrArg (fun d => some (Response.mk .ok d)) (boolData_bufferFull_bufpush s v), rfl, rfl, rfl⟩

end Sys2Proof.Machine
